-- ==== Sys2Proof/Word.lean ====
section
/-! DEFINITION. The block's word types (R4, R7: every quantity is unsigned and of fixed width). -/

namespace Sys2Proof

/-- An 8-bit value: a selector (R86), the overflow marker (R23), a byte of the output stream (R35). -/
abbrev Byte := BitVec 8

/-- A 16-bit value: the counter, the capture latch, `rawTicks` (R21, R25, R26) and the wire word (R80). -/
abbrev Word := BitVec 16

/-- A 15-bit duration in wire units of 1/16384 s (R81). -/
abbrev Duration := BitVec 15

end Sys2Proof
end

