-- ==== Sys2Proof/Syntax.lean ====
section
/-! DEFINITION. The operations of the block: one constructor for each row of `spec/opcode_table.json`. -/

namespace Sys2Proof

/-- The rows of the opcode table: the twelve operations of R87, the reserved selectors of R88, and the three wire words
of R81 and R82. -/
inductive Instr where
  /-- TICK (R110). -/
  | tick
  /-- LINE_SET v (R111). -/
  | lineSet (v : Bool)
  /-- CAPTURE_ISR (R113). -/
  | captureIsr
  /-- OVERFLOW_ISR (R140). -/
  | overflowIsr
  /-- COMPARE_ISR (R143). -/
  | compareIsr
  /-- LOOP_CHECK (R210). -/
  | loopCheck
  /-- ENTER_SLEEP (R211). -/
  | enterSleep
  /-- SNAPSHOT (R180). -/
  | snapshot
  /-- INDICATOR_ON (R181). -/
  | indicatorOn
  /-- EMIT_LO (R186). -/
  | emitLo
  /-- EMIT_HI (R187). -/
  | emitHi
  /-- RESET v (R260). -/
  | reset (v : Bool)
  /-- RESERVED: a selector that names no operation (R88). -/
  | reserved (op : Byte)
  /-- WIRE_MEASUREMENT: the wire word with level flag `l` (1 = LOW) and duration `d` (R81; log 11). -/
  | wireMeasurement (l : Bool) (d : Duration)
  /-- WIRE_OVERFLOW_HIGH: the wire word 0xFFFF (R82; log 11). -/
  | wireOverflowHigh
  /-- WIRE_OVERFLOW_LOW: the wire word 0x7FFF (R82; log 11). -/
  | wireOverflowLow
  deriving DecidableEq, Repr

/-- One encoded item: the block has two kinds of encoding, 8-bit selectors (R86) and 16-bit wire words (R80). -/
inductive Code where
  | op8 (op : Byte)
  | wire16 (w : Word)
  deriving DecidableEq, Repr

end Sys2Proof
end

