-- ==== Sys2Proof/WellFormed.lean ====
section
/-! DEFINITION. When an instruction is one that some encoding stands for. -/

namespace Sys2Proof

/-- R88, clause by clause: a selector is reserved if its bits 7 to 5 are not zero, or its code is 0xC or more, or its
operand bit is set although its code is neither 0x1 nor 0xB. -/
def selectorReserved (op : Byte) : Bool :=
  decide (op.toNat / 32 ≠ 0)
    || decide (12 ≤ op.toNat % 16)
    || (decide (op.toNat / 16 % 2 = 1) && decide (op.toNat % 16 ≠ 1) && decide (op.toNat % 16 ≠ 11))

/-- An instruction is well formed when its encoding stands for it. The operand of RESERVED is a reserved selector (R88);
a measurement word's duration is never 0 (R81, R83), and the words of duration 32767 are those of the two overflow rows
(R84; log 12). -/
def Instr.wf : Instr → Bool
  | .tick => true
  | .lineSet _ => true
  | .captureIsr => true
  | .overflowIsr => true
  | .compareIsr => true
  | .loopCheck => true
  | .enterSleep => true
  | .snapshot => true
  | .indicatorOn => true
  | .emitLo => true
  | .emitHi => true
  | .reset _ => true
  | .reserved op => selectorReserved op
  | .wireMeasurement _ d => decide (d ≠ 0#15) && decide (d ≠ 32767#15)
  | .wireOverflowHigh => true
  | .wireOverflowLow => true

end Sys2Proof
end

