-- ==== Sys2Proof/Decode.lean ====
section
/-! DEFINITION. From an encoded item to the instruction it stands for, and back; the byte order of wire words; the
text notation and the pseudo-operations of R91 and R92. -/

namespace Sys2Proof

/-! ## Bytes of a word -/

/-- The low byte `w[7:0]` (R7, R62). -/
def lowByte (w : Word) : Byte := w.extractLsb' 0 8

/-- The high byte `w[15:8]` (R7, R62). -/
def highByte (w : Word) : Byte := w.extractLsb' 8 8

/-- The word of a byte pair, the low byte first: `(b1 << 8) | b0` (R85). -/
def wordOfBytes (b0 b1 : Byte) : Word := (b1.setWidth 16 <<< 8) ||| b0.setWidth 16

/-- The measurement word `(L << 15) | d` (R81). -/
def measurementWord (l : Bool) (d : Duration) : Word :=
  ((if l then 1#16 else 0#16) <<< 15) ||| d.setWidth 16

/-- The overflow word of a marker: the marker is the high byte, 0xFF the low byte (R82, R183). -/
def encodeOverflow (m : Byte) : Word := (m.setWidth 16 <<< 8) ||| 0x00FF#16

/-! ## Decoding -/

/-- What the decoder answers on an item. -/
inductive Decoded where
  /-- The instruction the item stands for. -/
  | instr (i : Instr)
  /-- A wire word of duration 0, that is 0x0000 or 0x8000: "the only reserved part of the wire encoding" (R83). -/
  | reservedWire (w : Word)
  deriving DecidableEq, Repr

/-- What the decoder answers on a byte string. -/
inductive DecodedBytes where
  /-- The bytes are one item. -/
  | item (d : Decoded)
  /-- Neither one selector nor the two bytes of a wire word. -/
  | badLength (n : Nat)
  deriving DecidableEq, Repr

/-- The operation of R87 for a code 0x0 to 0xA other than 0x1, else RESERVED. -/
def plainOperation (op : Byte) : Instr :=
  match (op.extractLsb' 0 4).toNat with
  | 0x0 => .tick
  | 0x2 => .captureIsr
  | 0x3 => .overflowIsr
  | 0x4 => .compareIsr
  | 0x5 => .loopCheck
  | 0x6 => .enterSleep
  | 0x7 => .snapshot
  | 0x8 => .indicatorOn
  | 0x9 => .emitLo
  | 0xA => .emitHi
  | _ => .reserved op

/-- The selector decoding procedure of R89, total on 8 bits. A reserved selector decodes to RESERVED, whose meaning is the
refusal ReservedOp(op) (log 10). -/
def decodeSelector (op : Byte) : Instr :=
  if op.extractLsb' 5 3 ≠ 0#3 then .reserved op
  else if op.extractLsb' 0 4 = 0x1#4 then .lineSet (op.getLsbD 4)
  else if op.extractLsb' 0 4 = 0xB#4 then .reset (op.getLsbD 4)
  else if op.getLsbD 4 then .reserved op
  else plainOperation op

/-- Reading a wire word (R81 to R83). 0xFFFF and 0x7FFF are the overflow rows (R85; log 12). -/
def decodeWire (w : Word) : Decoded :=
  if w.extractLsb' 0 15 = 0#15 then .reservedWire w
  else if w = 0xFFFF#16 then .instr .wireOverflowHigh
  else if w = 0x7FFF#16 then .instr .wireOverflowLow
  else .instr (.wireMeasurement (w.getLsbD 15) (w.extractLsb' 0 15))

/-- Decoding an item, total. -/
def decode : Code → Decoded
  | .op8 op => .instr (decodeSelector op)
  | .wire16 w => decodeWire w

/-- Decoding bytes, total: one byte is a selector, two bytes are a wire word with the low byte first (R62). -/
def decodeBytes : List Byte → DecodedBytes
  | [op] => .item (decode (.op8 op))
  | [b0, b1] => .item (decode (.wire16 (wordOfBytes b0 b1)))
  | bs => .badLength bs.length

/-! ## Encoding -/

/-- A selector `000v cccc` (R86). -/
def selector (v : Bool) (opc : BitVec 4) : Byte :=
  ((if v then 1#8 else 0#8) <<< 4) ||| opc.setWidth 8

/-- The encoding of an instruction (R81, R82, R87). -/
def encode : Instr → Code
  | .tick => .op8 (selector false 0x0#4)
  | .lineSet v => .op8 (selector v 0x1#4)
  | .captureIsr => .op8 (selector false 0x2#4)
  | .overflowIsr => .op8 (selector false 0x3#4)
  | .compareIsr => .op8 (selector false 0x4#4)
  | .loopCheck => .op8 (selector false 0x5#4)
  | .enterSleep => .op8 (selector false 0x6#4)
  | .snapshot => .op8 (selector false 0x7#4)
  | .indicatorOn => .op8 (selector false 0x8#4)
  | .emitLo => .op8 (selector false 0x9#4)
  | .emitHi => .op8 (selector false 0xA#4)
  | .reset v => .op8 (selector v 0xB#4)
  | .reserved op => .op8 op
  | .wireMeasurement l d => .wire16 (measurementWord l d)
  | .wireOverflowHigh => .wire16 (encodeOverflow 0xFF#8)
  | .wireOverflowLow => .wire16 (encodeOverflow 0x7F#8)

/-- The bytes of an item, a wire word low byte first (R62). -/
def Code.bytes : Code → List Byte
  | .op8 op => [op]
  | .wire16 w => [lowByte w, highByte w]

/-- The item whose bits are `w` in the opcode table's numbering: a row of up to 8 bits is a selector, a longer one a wire
word, whose first byte is bits 7 to 0. -/
def codeOfTableWord (nbits w : Nat) : Code :=
  if nbits ≤ 8 then .op8 (BitVec.ofNat 8 w) else .wire16 (BitVec.ofNat 16 w)

/-- The instruction the decoder reads from a table word of 8 or 16 bits. -/
def decodeTableWord (nbits w : Nat) : Option Instr :=
  if nbits = 8 ∨ nbits = 16 then
    match decodeBytes (codeOfTableWord nbits w).bytes with
    | .item (.instr i) => some i
    | .item (.reservedWire _) => none
    | .badLength _ => none
  else none

/-! ## The scheduler's table -/

/-- The fourteen selectors of R87, LINE_SET and RESET once for each operand. -/
def choiceSelector (k : Fin 14) : Byte :=
  match k.val with
  | 0 => 0x00#8
  | 1 => 0x01#8
  | 2 => 0x11#8
  | 3 => 0x02#8
  | 4 => 0x03#8
  | 5 => 0x04#8
  | 6 => 0x05#8
  | 7 => 0x06#8
  | 8 => 0x07#8
  | 9 => 0x08#8
  | 10 => 0x09#8
  | 11 => 0x0A#8
  | 12 => 0x0B#8
  | _ => 0x1B#8

/-! ## Text notation and pseudo-operations -/

/-- The text of an operation (R91). RESERVED and the wire words have no text form. -/
def Instr.text : Instr → Option String
  | .tick => some "tick"
  | .lineSet v => some (if v then "line 1" else "line 0")
  | .captureIsr => some "isr cap"
  | .overflowIsr => some "isr ovf"
  | .compareIsr => some "isr cmp"
  | .loopCheck => some "check"
  | .enterSleep => some "sleep"
  | .snapshot => some "snap"
  | .indicatorOn => some "led_on"
  | .emitLo => some "emit_lo"
  | .emitHi => some "emit_hi"
  | .reset v => some (if v then "reset 1" else "reset 0")
  | .reserved _ => none
  | .wireMeasurement _ _ => none
  | .wireOverflowHigh => none
  | .wireOverflowLow => none

/-- `ticks N` (R92). -/
def pseudoTicks (n : Nat) : List Instr := List.replicate n .tick

/-- `edge N v` (R92). -/
def pseudoEdge (n : Nat) (v : Bool) : List Instr := pseudoTicks n ++ [.lineSet v]

/-- `drain` (R92): one pass of the main loop. -/
def pseudoDrain : List Instr := [.loopCheck, .snapshot, .indicatorOn, .emitLo, .emitHi]

/-- `idle` (R92). -/
def pseudoIdle : List Instr := [.loopCheck, .enterSleep]

end Sys2Proof
end

