-- ==== Sys2Proof/Config.lean ====
section
/-! DEFINITION. The configuration parameters of R4, the arguments of a RESET event, and the free values: opaque
constants with no body, for what the spec leaves to the environment. -/

namespace Sys2Proof

/-- LEVEL_SOURCE (R4, R114, D5): how the capture handler obtains the exited level. -/
inductive LevelSource where
  | lineSample
  | edgeSelect
  deriving DecidableEq, Repr

/-- BOOT_PENDING (R4, D9): the three event flags at reset. -/
structure BootPending where
  cap : Bool
  ovf : Bool
  cmp : Bool
  deriving DecidableEq, Repr

/-- The configuration parameters of R4. No operation changes them. The draws INITIAL_COUNT, INITIAL_ICR and
INITIAL_LED are the arguments of a RESET event (`ResetDraw`), and INITIAL_LINE is RESET's operand (R260). -/
structure Config where
  /-- OSC_HZ. -/
  oscHz : Nat
  /-- PRESCALE. -/
  prescale : Nat
  /-- BAUD: no rule depends on it (R4; log 15). -/
  baud : Nat
  /-- COMPARE_VALUE: what the timer's compare register holds (R241). -/
  compareValue : Word
  /-- LEVEL_SOURCE. -/
  levelSource : LevelSource
  /-- MARKER_HIGH. -/
  markerHigh : Byte
  /-- MARKER_LOW. -/
  markerLow : Byte
  /-- BOOT_PENDING. -/
  bootPending : BootPending
  deriving DecidableEq, Repr

/-- The arguments (c, i, l) of a RESET event (R260): INITIAL_COUNT, INITIAL_ICR, INITIAL_LED, any values. -/
structure ResetDraw where
  count : Word
  icr : Word
  led : Bool
  deriving DecidableEq, Repr, Inhabited

/-- FREE VALUE. COMPARE_VALUE of the device: the spec gives no number (D20; log 8). -/
opaque Config.openCompareValue : Word

/-- FREE VALUE. The scheduler's n-th choice among the fourteen selectors of R87: "Which enabled operation comes next
is left open" (R10, R234; log 2). -/
opaque Config.freeChoice : Nat → Fin 14

/-- FREE VALUE. Whether the transport takes the byte at the n-th emit attempt (R186, U12; log 4). -/
opaque Config.freeReady : Nat → Bool

/-- FREE VALUE. The draws of the n-th RESET: "any values" (R260, U5 to U7; log 5). -/
opaque Config.freeDraw : Nat → ResetDraw

/-- The reference configuration (R5, D22) with the spec's defaults for LEVEL_SOURCE (D5), the markers (D4) and
BOOT_PENDING (D9), for a given COMPARE_VALUE. -/
def Config.reference (compareValue : Word) : Config where
  oscHz := 16000000
  prescale := 256
  baud := 115200
  compareValue := compareValue
  levelSource := .lineSample
  markerHigh := 0xFF#8
  markerLow := 0x7F#8
  bootPending := { cap := false, ovf := false, cmp := false }

end Sys2Proof
end

