-- ==== Sys2Proof/Machine/State.lean ====
section
/-! DEFINITION. The state record of R20, the configuration it runs under, the open choices of the environment as plain
data, the reasons a step can stop, and the state after reset. -/

namespace Sys2Proof.Machine

/-- PendingMeasurement, the shared slot (R21 to R23), and the value a snapshot of it has (R33). -/
structure PendingMeasurement where
  /-- Ticks since the previous transition; 0 means no pending measurement (R21). -/
  rawTicks : Word
  /-- The line's level during the interval that ended, 1 = HIGH (R22). -/
  exitedLevelHigh : Bool
  /-- 0, or the sentinel of the level held while an epoch ended with no transition (R23). -/
  overflowMarker : Byte
  deriving DecidableEq, Repr

/-- The empty slot: "created implicitly at boot (zeroed)" (R21). -/
def PendingMeasurement.zero : PendingMeasurement where
  rawTicks := 0#16
  exitedLevelHigh := false
  overflowMarker := 0#8

/-- The edge-detection polarity (R27). -/
inductive Edge where
  | rising
  | falling
  deriving DecidableEq, Repr

/-- The sequencer state of the idle/wake loop (R33). -/
inductive Seq where
  | check
  | preSleep
  | asleep
  | snap
  | lit (p : PendingMeasurement)
  | emitLo (w : Word)
  | emitHi (w : Word)
  deriving DecidableEq, Repr

/-- The MODEL's own fields: what the environment will choose next. Where a list is empty the choice is the opaque constant
of `Config` at the counter (log 1, 2, 4, 5). -/
structure Env where
  /-- The operations to come, the next one first. -/
  script : List Code
  /-- The transport's answers to come, one for each emit attempt. -/
  ready : List Bool
  /-- The arguments of the RESET events to come. -/
  draws : List ResetDraw
  /-- Index of the next free scheduler choice. -/
  choiceNo : Nat
  /-- Index of the next free transport answer. -/
  readyNo : Nat
  /-- Index of the next free RESET argument. -/
  drawNo : Nat
  deriving DecidableEq, Repr

/-- The state: R20's record, with the constant configuration (R4; log 7) and the environment's choices (log 1). -/
structure State where
  /-- The configuration parameters (R4). -/
  cfg : Config
  /-- The shared slot (R21 to R23). -/
  pm : PendingMeasurement
  /-- The tick accumulator (R25). -/
  count : Word
  /-- The capture latch (R26). -/
  icr : Word
  /-- The edge-detection polarity (R27). -/
  edge : Edge
  /-- The capture-pending flag (R28). -/
  capPending : Bool
  /-- The rollover-pending flag (R29). -/
  ovfPending : Bool
  /-- The compare-match-pending flag (R30). -/
  cmpPending : Bool
  /-- The IR input level, 1 = HIGH (R31). -/
  line : Bool
  /-- The activity indicator, 1 = on (R32). -/
  led : Bool
  /-- The sequencer (R33). -/
  seq : Seq
  /-- The serial output stream (R35). -/
  out : List Byte
  /-- The environment's choices to come (the model's own). -/
  env : Env
  deriving DecidableEq, Repr

/-- The faults: none. "The block has no fault outcome" (R11), "no fault reason" (R231). Nobody raises one. -/
inductive Fault where
  deriving DecidableEq, Repr

/-- The refusals. Each is safe: the model gives no run where the spec gives none (R231, "toward unprovable"). -/
inductive Refusal where
  /-- Raised by an arm of `exec` that has no meaning yet. No arm is left in that form. Safe. -/
  | notModelled (mnemonic : String)
  /-- BadConfig, raised by `step` when the configuration fails R6. Safe. -/
  | badConfig
  /-- ReservedOp(op), raised by the meaning of RESERVED (R88). Safe. -/
  | reservedOp (op : Byte)
  deriving DecidableEq, Repr

/-- No choice of the environment is fixed in advance (log 9). -/
def Env.reset : Env where
  script := []
  ready := []
  draws := []
  choiceNo := 0
  readyNo := 0
  drawNo := 0

/-- The machine right after reset: R260's `reset 1` with all draws 0 (log 6), under the reference configuration with
COMPARE_VALUE open (R5, D20; log 8). -/
def State.reset : State where
  cfg := Config.reference Config.openCompareValue
  pm := PendingMeasurement.zero
  count := 0#16
  icr := 0#16
  edge := .falling
  capPending := false
  ovfPending := false
  cmpPending := false
  line := true
  led := false
  seq := .check
  out := []
  env := Env.reset

end Sys2Proof.Machine
end

