-- ==== Sys2Proof/Machine/Operands.lean ====
section
/-! DEFINITION. The values operations compute from their operands: the configuration's derived constants, the edge match,
the exited level, the timescale converter, the wire encodings, the environment's answers, and the host's reading of a word. -/

namespace Sys2Proof.Machine

/-! ## Configuration (R4, R6, R160) -/

/-- SCALE_DEN: both divisions are floor divisions (R160). -/
def scaleDen (c : Config) : Nat := c.oscHz / c.prescale / 4

/-- Configuration validity, the three clauses of R6. -/
def configValid (c : Config) : Bool :=
  decide (1 ≤ c.prescale) && decide (1 ≤ scaleDen c)
    && (decide (c.markerHigh ≠ 0#8) && decide (c.markerLow ≠ 0#8) && decide (c.markerHigh ≠ c.markerLow))

/-! ## Edges and levels (R112, R113, R114) -/

/-- The opposite polarity. -/
def flipEdge : Edge → Edge
  | .rising => .falling
  | .falling => .rising

/-- The edge-match predicate of R112. -/
def edgeMatches (old v : Bool) (edge : Edge) : Bool :=
  (!old && v && decide (edge = .rising)) || (old && !v && decide (edge = .falling))

/-- The polarity reset selects for an initial line level (R27, R260). -/
def resetEdge (v : Bool) : Edge := if v then .falling else .rising

/-- The exited level (R114). -/
def exitedLevel (s : State) : Bool :=
  match s.cfg.levelSource with
  | .lineSample => !s.line
  | .edgeSelect => decide (s.edge = .falling)

/-- The marker for a line level (R140). -/
def markerFor (c : Config) (line : Bool) : Byte := if line then c.markerHigh else c.markerLow

/-! ## The timescale converter (R161 to R164) -/

/-- `scaled`: the exact floor division, with no 16-bit intermediate (R161, R162). -/
def scaled (den : Nat) (t : Word) : Nat := t.toNat * 4096 / den

/-- Convert (R161), with its saturation (R163) and its zero floor (R164). -/
def convert (den : Nat) (t : Word) : Duration :=
  if scaled den t > 32767 then 32767#15
  else if scaled den t = 0 then 1#15
  else BitVec.ofNat 15 (scaled den t)

/-! ## The wire encodings (R182 to R185) -/

/-- EncodeMeasurement (R184): bit 15 is set exactly when the exited level was LOW. -/
def encodeMeasurement (den : Nat) (t : Word) (hi : Bool) : Word := measurementWord (!hi) (convert den t)

/-- Encode (R182): a set marker takes priority. -/
def encodeWord (c : Config) (p : PendingMeasurement) : Word :=
  if p.overflowMarker ≠ 0#8 then encodeOverflow p.overflowMarker
  else encodeMeasurement (scaleDen c) p.rawTicks p.exitedLevelHigh

/-- Serialize (R185): two bytes, the low byte first. -/
def serialize (w : Word) : List Byte := [lowByte w, highByte w]

/-! ## The environment's answers (log 4, log 5) -/

/-- Whether the transport takes the byte offered at this attempt (R36, R186). -/
def transportTakes (s : State) : Bool :=
  match s.env.ready with
  | b :: _ => b
  | [] => Config.freeReady s.env.readyNo

/-- The arguments of the RESET event that is happening (R260). -/
def resetDraw (s : State) : ResetDraw :=
  match s.env.draws with
  | d :: _ => d
  | [] => Config.freeDraw s.env.drawNo

/-! ## Output ports (R36; log 20) -/

/-- TX_VALID: a byte is offered to the transport. -/
def txValid (s : State) : Bool :=
  match s.seq with
  | .emitLo _ => true
  | .emitHi _ => true
  | _ => false

/-- TX_DATA: the byte the next emit step appends, while TX_VALID holds. -/
def txData (s : State) : Option Byte :=
  match s.seq with
  | .emitLo w => some (lowByte w)
  | .emitHi w => some (highByte w)
  | _ => none

/-! ## The host's reading of a word (R85, "given for test purposes only"; log 16) -/

/-- What a host reads from a word: an overflow with its level, or a measurement with its level and duration. -/
inductive Reading where
  | overflow (high : Bool)
  | measurement (high : Bool) (d : Duration)
  deriving DecidableEq, Repr

/-- R85: the overflow words are recognised only in R84's case (a), SCALE_DEN ≥ 8193. -/
def hostRead (den : Nat) (b0 b1 : Byte) : Reading :=
  if (wordOfBytes b0 b1 = 0xFFFF#16 ∨ wordOfBytes b0 b1 = 0x7FFF#16) ∧ 8193 ≤ den then
    .overflow ((wordOfBytes b0 b1).getLsbD 15)
  else .measurement (!(wordOfBytes b0 b1).getLsbD 15) ((wordOfBytes b0 b1).extractLsb' 0 15)

end Sys2Proof.Machine
end

