-- ==== Sys2Proof/Machine/Flags.lean ====
section
/-! DEFINITION. The measurement-pending predicate, the event flags TICK sets, and the enabling conditions of R87. -/

namespace Sys2Proof.Machine

/-- The measurement-pending flag (R24): the only condition that starts a drain. -/
def measurementPending (s : State) : Bool := decide (s.pm.rawTicks ≠ 0#16)

/-- `ovfPending` after a TICK from count `old` (R110): set on the wrap, never cleared. -/
def rolloverFlag (old : Word) (flag : Bool) : Bool := if old = 0xFFFF#16 then true else flag

/-- `cmpPending` after a TICK to count `new` (R110): set on a match, never cleared. -/
def compareFlag (c : Config) (new : Word) (flag : Bool) : Bool := if new = c.compareValue then true else flag

/-- Whether the sequencer holds a snapshot, `Lit(_)`. -/
def isLit : Seq → Bool
  | .lit _ => true
  | _ => false

/-- Whether the low byte of a word is due, `EmitLo(_)`. -/
def isEmitLo : Seq → Bool
  | .emitLo _ => true
  | _ => false

/-- Whether the high byte of a word is due, `EmitHi(_)`. -/
def isEmitHi : Seq → Bool
  | .emitHi _ => true
  | _ => false

/-- Whether a byte of this very word is due (log 11). -/
def wordDue (w : Word) (s : State) : Bool := decide (s.seq = .emitLo w) || decide (s.seq = .emitHi w)

/-- The enabling conditions, R87's column "enabled when". A wire word is enabled while a byte of it is due and the
transport takes it (log 11); RESERVED names no operation. -/
def enabled (i : Instr) (s : State) : Bool :=
  match i with
  | .tick => true
  | .lineSet _ => true
  | .captureIsr => s.capPending
  | .overflowIsr => s.ovfPending
  | .compareIsr => s.cmpPending
  | .loopCheck => decide (s.seq = .check)
  | .enterSleep => decide (s.seq = .preSleep)
  | .snapshot => decide (s.seq = .snap)
  | .indicatorOn => isLit s.seq
  | .emitLo => isEmitLo s.seq && transportTakes s
  | .emitHi => isEmitHi s.seq && transportTakes s
  | .reset _ => true
  | .reserved _ => false
  | .wireMeasurement l d => wordDue (measurementWord l d) s && transportTakes s
  | .wireOverflowHigh => wordDue (encodeOverflow 0xFF#8) s && transportTakes s
  | .wireOverflowLow => wordDue (encodeOverflow 0x7F#8) s && transportTakes s

/-- R34: the loop is Idle. `Check` with an empty slot belongs to Idle. -/
def isIdle (s : State) : Bool :=
  decide (s.seq = .preSleep) || decide (s.seq = .asleep) || (decide (s.seq = .check) && !measurementPending s)

/-- R34: the loop is Active. `Check` with a pending measurement belongs to Active. -/
def isActive (s : State) : Bool :=
  decide (s.seq = .snap) || isLit s.seq || isEmitLo s.seq || isEmitHi s.seq
    || (decide (s.seq = .check) && measurementPending s)

end Sys2Proof.Machine
end

