-- ==== Sys2Proof/Machine/Ops.lean ====
section
/-! DEFINITION. The operations the meanings share: the hold, taking an interrupt and returning from it, offering a byte to
the transport, and what reset writes. -/

namespace Sys2Proof.Machine

/-- The outcome of a step. -/
abbrev Result := Host.Outcome State Fault Refusal

/-- An operation that is not enabled: the step does not happen, and it is not an error (R11, R87; log 3). -/
def hold (s : State) : Result := .next s

/-- The return from a handler (R212, R238): `Asleep` becomes `Check`, any other sequencer state stays. -/
def wake (s : State) : State := { s with seq := if s.seq = .asleep then .check else s.seq }

/-- Taking an interrupt (R236, R237): a handler whose flag is set runs as one atomic step. It saves nothing, has its effect,
and ends with the wake. With its flag clear it is not enabled. -/
def takeInterrupt (pending : Bool) (handler : State → State) (s : State) : Result :=
  if pending then .next (wake (handler s)) else hold s

/-- One answer of the transport is used up (log 4). -/
def spendReady (s : State) : State :=
  { s with env :=
      match s.env.ready with
      | _ :: rest => { s.env with ready := rest }
      | [] => { s.env with readyNo := s.env.readyNo + 1 } }

/-- One RESET argument is used up (log 5). -/
def spendDraw (s : State) : State :=
  { s with env :=
      match s.env.draws with
      | _ :: rest => { s.env with draws := rest }
      | [] => { s.env with drawNo := s.env.drawNo + 1 } }

/-- Offer a byte to the transport (R186, R187): if it takes the byte, the byte is appended to the stream and the sequencer
moves; until then the step is held. -/
def offerByte (b : Byte) (after : Seq) (s : State) : Result :=
  if transportTakes s then .next { spendReady s with out := s.out ++ [b], seq := after }
  else hold (spendReady s)

/-- Send the low byte of the word in flight (R186). -/
def sendLow (w : Word) (s : State) : Result := offerByte (lowByte w) (.emitHi w) s

/-- Send the high byte of the word in flight and return to the loop test (R187). -/
def sendHigh (w : Word) (s : State) : Result := offerByte (highByte w) .check s

/-- A step of the emission of the wire word `w` (log 11): the EMIT_LO or the EMIT_HI of that word, whichever is due; a hold
when neither is. -/
def transferWord (w : Word) (s : State) : Result :=
  match s.seq with
  | .emitLo w' => if w' = w then sendLow w s else hold s
  | .emitHi w' => if w' = w then sendHigh w s else hold s
  | .check => hold s
  | .preSleep => hold s
  | .asleep => hold s
  | .snap => hold s
  | .lit _ => hold s

/-- An item with a wire word that the block never produces (R83): its emission is never due, so it holds, and it stays in
the script (R11 (b), R92; log 13). -/
def holdReservedWire (_w : Word) (s : State) : Result := hold s

/-- What RESET writes (R260): every field of R20's record. The configuration is not state. -/
def resetBlock (v : Bool) (d : ResetDraw) (s : State) : State :=
  { s with
    pm := PendingMeasurement.zero
    count := d.count
    icr := d.icr
    line := v
    edge := resetEdge v
    capPending := s.cfg.bootPending.cap
    ovfPending := s.cfg.bootPending.ovf
    cmpPending := s.cfg.bootPending.cmp
    led := d.led
    seq := .check
    out := [] }

end Sys2Proof.Machine
end

