-- ==== Sys2Proof/Machine/EdgeCapture.lean ====
section
/-! DEFINITION. TICK, LINE_SET and CAPTURE_ISR (`40_edge_capture.md`). -/

namespace Sys2Proof.Machine

/-- TICK (R110): the count advances modulo 2^16; the wrap and the compare match set their flags. -/
def execTick (s : State) : Result :=
  .next { s with
    count := s.count + 1#16
    ovfPending := rolloverFlag s.count s.ovfPending
    cmpPending := compareFlag s.cfg (s.count + 1#16) s.cmpPending }

/-- LINE_SET v (R111): a transition moves the line, and one of the selected polarity latches the count. -/
def execLineSet (v : Bool) (s : State) : Result :=
  if v = s.line then .next s
  else if edgeMatches s.line v s.edge then .next { s with line := v, icr := s.count, capPending := true }
  else .next { s with line := v }

/-- The capture handler's effect (R113): the marker is left alone (R115). -/
def recordCapture (s : State) : State :=
  { s with
    pm := { s.pm with rawTicks := s.icr, exitedLevelHigh := exitedLevel s }
    count := 0#16
    edge := flipEdge s.edge
    capPending := false }

/-- CAPTURE_ISR (R113). -/
def execCaptureIsr (s : State) : Result := takeInterrupt s.capPending recordCapture s

end Sys2Proof.Machine
end

