-- ==== Sys2Proof/Machine/Emitter.lean ====
section
/-! DEFINITION. SNAPSHOT, INDICATOR_ON, EMIT_LO and EMIT_HI (`43_encoder_emitter.md`), and the rows of the three wire
words, which are emissions of those words (log 11). -/

namespace Sys2Proof.Machine

/-- SNAPSHOT (R180): read and clear the slot in one step. -/
def execSnapshot (s : State) : Result :=
  if s.seq = .snap then .next { s with pm := PendingMeasurement.zero, seq := .lit s.pm } else hold s

/-- INDICATOR_ON (R181): the indicator goes on and the snapshot is encoded. -/
def execIndicatorOn (s : State) : Result :=
  match s.seq with
  | .lit p => .next { s with led := true, seq := .emitLo (encodeWord s.cfg p) }
  | .check => hold s
  | .preSleep => hold s
  | .asleep => hold s
  | .snap => hold s
  | .emitLo _ => hold s
  | .emitHi _ => hold s

/-- EMIT_LO (R186). -/
def execEmitLo (s : State) : Result :=
  match s.seq with
  | .emitLo w => sendLow w s
  | .check => hold s
  | .preSleep => hold s
  | .asleep => hold s
  | .snap => hold s
  | .lit _ => hold s
  | .emitHi _ => hold s

/-- EMIT_HI (R187). -/
def execEmitHi (s : State) : Result :=
  match s.seq with
  | .emitHi w => sendHigh w s
  | .check => hold s
  | .preSleep => hold s
  | .asleep => hold s
  | .snap => hold s
  | .lit _ => hold s
  | .emitLo _ => hold s

/-- WIRE_MEASUREMENT (R81, R184): a step of the emission of that word. -/
def execWireMeasurement (l : Bool) (d : Duration) (s : State) : Result := transferWord (measurementWord l d) s

/-- WIRE_OVERFLOW_HIGH (R82, R183): a step of the emission of 0xFFFF. -/
def execWireOverflowHigh (s : State) : Result := transferWord (encodeOverflow 0xFF#8) s

/-- WIRE_OVERFLOW_LOW (R82, R183): a step of the emission of 0x7FFF. -/
def execWireOverflowLow (s : State) : Result := transferWord (encodeOverflow 0x7F#8) s

end Sys2Proof.Machine
end

