-- ==== Sys2Proof/Machine/IdleWake.lean ====
section
/-! DEFINITION. LOOP_CHECK and ENTER_SLEEP (`44_idle_wake.md`). -/

namespace Sys2Proof.Machine

/-- LOOP_CHECK (R210): only `rawTicks` decides (R215). -/
def execLoopCheck (s : State) : Result :=
  if s.seq = .check then .next { s with seq := if measurementPending s then .snap else .preSleep }
  else hold s

/-- ENTER_SLEEP (R211): gated neither on the slot nor on the flags (R216). -/
def execEnterSleep (s : State) : Result :=
  if s.seq = .preSleep then .next { s with seq := .asleep } else hold s

end Sys2Proof.Machine
end

