-- ==== Sys2Proof/Machine/OverflowTracker.lean ====
section
/-! DEFINITION. OVERFLOW_ISR and COMPARE_ISR (`41_overflow_tracker.md`). -/

namespace Sys2Proof.Machine

/-- The rollover handler's effect (R140): the marker of the line's level at this step. -/
def recordOverflow (s : State) : State :=
  { s with pm := { s.pm with overflowMarker := markerFor s.cfg s.line }, ovfPending := false }

/-- OVERFLOW_ISR (R140). -/
def execOverflowIsr (s : State) : Result := takeInterrupt s.ovfPending recordOverflow s

/-- The compare handler's effect (R143): the indicator goes off. -/
def indicatorOff (s : State) : State := { s with led := false, cmpPending := false }

/-- COMPARE_ISR (R143). -/
def execCompareIsr (s : State) : Result := takeInterrupt s.cmpPending indicatorOff s

end Sys2Proof.Machine
end

