-- ==== Sys2Proof/Machine/ResetControl.lean ====
section
/-! DEFINITION. RESET (`70_reset_and_hazards.md`) and the reserved selectors (`30_encoding.md` R88). -/

namespace Sys2Proof.Machine

/-- RESET v (R260), with the draws of this event. -/
def execReset (v : Bool) (s : State) : Result := .next (resetBlock v (resetDraw s) (spendDraw s))

/-- RESERVED: `refuse ReservedOp(op)` (R88, R231). -/
def execReserved (op : Byte) (_s : State) : Result := .refused (.reservedOp op)

end Sys2Proof.Machine
end

