-- ==== Sys2Proof/Machine/Dispatch.lean ====
section
/-! DEFINITION. One arm for each row of the opcode table. -/

namespace Sys2Proof.Machine

def exec (i : Instr) (s : State) : Host.Outcome State Fault Refusal :=
  match i with
  | .tick => Sys2Proof.Machine.execTick s
  | .lineSet v => Sys2Proof.Machine.execLineSet v s
  | .captureIsr => Sys2Proof.Machine.execCaptureIsr s
  | .overflowIsr => Sys2Proof.Machine.execOverflowIsr s
  | .compareIsr => Sys2Proof.Machine.execCompareIsr s
  | .loopCheck => Sys2Proof.Machine.execLoopCheck s
  | .enterSleep => Sys2Proof.Machine.execEnterSleep s
  | .snapshot => Sys2Proof.Machine.execSnapshot s
  | .indicatorOn => Sys2Proof.Machine.execIndicatorOn s
  | .emitLo => Sys2Proof.Machine.execEmitLo s
  | .emitHi => Sys2Proof.Machine.execEmitHi s
  | .reset v => Sys2Proof.Machine.execReset v s
  | .reserved op => Sys2Proof.Machine.execReserved op s
  | .wireMeasurement l d => Sys2Proof.Machine.execWireMeasurement l d s
  | .wireOverflowHigh => Sys2Proof.Machine.execWireOverflowHigh s
  | .wireOverflowLow => Sys2Proof.Machine.execWireOverflowLow s

end Sys2Proof.Machine
end

