-- ==== Sys2Proof/Machine/Fetch.lean ====
section
/-! DEFINITION. Which operation comes next, and what is used up when it has been tried (log 1 to 3). -/

namespace Sys2Proof.Machine

/-- The next item: the script's head, or a free choice among the selectors of R87 when the script is empty (R10, R234). -/
def nextCode (s : State) : Code :=
  match s.env.script with
  | c :: _ => c
  | [] => .op8 (choiceSelector (Config.freeChoice s.env.choiceNo))

/-- Whether this step ends the script's item: it is enabled, and a wire word is ended by its high byte (R92; log 3, 11). -/
def finishesItem (i : Instr) (s : State) : Bool :=
  match i with
  | .tick => enabled i s
  | .lineSet _ => enabled i s
  | .captureIsr => enabled i s
  | .overflowIsr => enabled i s
  | .compareIsr => enabled i s
  | .loopCheck => enabled i s
  | .enterSleep => enabled i s
  | .snapshot => enabled i s
  | .indicatorOn => enabled i s
  | .emitLo => enabled i s
  | .emitHi => enabled i s
  | .reset _ => enabled i s
  | .reserved _ => enabled i s
  | .wireMeasurement l d => decide (s.seq = .emitHi (measurementWord l d)) && transportTakes s
  | .wireOverflowHigh => decide (s.seq = .emitHi (encodeOverflow 0xFF#8)) && transportTakes s
  | .wireOverflowLow => decide (s.seq = .emitHi (encodeOverflow 0x7F#8)) && transportTakes s

/-- The choices after this step's item: an ended item leaves the script, a held one stays (R92, "holds at that line"); a
free choice is used up whether or not it was enabled. -/
def advanceChoice (i : Instr) (s : State) : State :=
  { s with env :=
      match s.env.script with
      | _ :: rest => if finishesItem i s then { s.env with script := rest } else s.env
      | [] => { s.env with choiceNo := s.env.choiceNo + 1 } }

/-- The state with one item placed before the script. -/
def placeCode (c : Code) (s : State) : State := { s with env := { s.env with script := c :: s.env.script } }

end Sys2Proof.Machine
end

