-- ==== Sys2Proof/Machine/Step.lean ====
section
/-! DEFINITION. One step: the configuration is admitted, the next item is decoded, and its instruction is executed. -/

namespace Sys2Proof.Machine

/-- One step (R10, R11). A run under an invalid configuration is refused (R6; log 14). An item with a wire word of duration
0 holds (log 13). -/
def step (s : State) : Host.Outcome State Fault Refusal :=
  if configValid s.cfg then
    match decode (nextCode s) with
    | .instr i => exec i (advanceChoice i s)
    | .reservedWire w => holdReservedWire w s
  else .refused .badConfig

/-- The state whose next step runs the instruction of this table word: its item stands first in the script (log 1). -/
def State.withFetchWord (s : State) (nbits w : Nat) : State := placeCode (codeOfTableWord nbits w) s

end Sys2Proof.Machine
end

