-- ==== Sys2Proof/Safety.lean ====
section
/-! DEFINITION. What claims about the block are stated with: runs of operations, the snapshots of a run, the words still
owed to the stream, and the invariant of the block. -/

namespace Sys2Proof.Machine

/-! ## Runs (R10, R69) -/

/-- A run: the operations one after the other, each from the state the previous one left. A refusal marks the whole run
(R11). -/
def execAll : List Instr → State → Result
  | [], s => .next s
  | i :: is, s =>
    match exec i s with
    | .next t => execAll is t
    | .fault r => .fault r
    | .refused r => .refused r

/-- The slot values that the SNAPSHOT steps of a run take, in order (R72, R189). -/
def snapshotsTaken : List Instr → State → List PendingMeasurement
  | [], _ => []
  | i :: is, s =>
    (if i = .snapshot ∧ s.seq = .snap then [s.pm] else []) ++
      match exec i s with
      | .next t => snapshotsTaken is t
      | .fault _ => []
      | .refused _ => []

/-- The bytes the main loop still owes the stream for the snapshot or the word it holds (R188). -/
def owedBytes (s : State) : List Byte :=
  match s.seq with
  | .lit p => serialize (encodeWord s.cfg p)
  | .emitLo w => serialize w
  | .emitHi w => [highByte w]
  | _ => []

/-- The number of TICK steps among some operations. -/
def tickCount : List Instr → Nat
  | [] => 0
  | i :: is => (if i = .tick then 1 else 0) + tickCount is

/-- The operation is RESET, for either level. -/
def isReset : Instr → Bool
  | .reset _ => true
  | _ => false

/-- The operation is LINE_SET, for either level. -/
def isLineSet : Instr → Bool
  | .lineSet _ => true
  | _ => false

/-- Polarity and line agree: the next transition is of the selected polarity (R112). -/
def polarityAgrees (s : State) : Prop := s.edge = if s.line then .falling else .rising

/-! ## The invariant -/

/-- The legal marker values (R23): 0 and the two sentinels. -/
def markerLegal (c : Config) (m : Byte) : Prop := m = 0#8 ∨ m = c.markerHigh ∨ m = c.markerLow

/-- The largest duration the converter reaches in a configuration (R165). -/
def maxDuration (c : Config) : Nat := min 32767 (max 1 (65535 * 4096 / scaleDen c))

/-- The words the block can produce (R81 to R83): a measurement word of a duration from 1 to the largest one, or one of the
two overflow words. -/
def wordLegal (c : Config) (w : Word) : Prop :=
  (∃ (l : Bool) (d : Duration), w = measurementWord l d ∧ 1 ≤ d.toNat ∧ d.toNat ≤ maxDuration c)
    ∨ w = encodeOverflow c.markerHigh ∨ w = encodeOverflow c.markerLow

/-- Bytes that are whole words, each low byte first, each word legal (R62, R64). -/
def framed (c : Config) (bytes : List Byte) : Prop :=
  ∃ words : List Word, (∀ w ∈ words, wordLegal c w) ∧ bytes = words.flatMap serialize

/-- The stream is whole words, and between EMIT_LO and EMIT_HI of a word also that word's low byte (R64). -/
def streamFramed (s : State) : Prop :=
  match s.seq with
  | .emitHi w => ∃ bytes, framed s.cfg bytes ∧ s.out = bytes ++ [lowByte w]
  | _ => framed s.cfg s.out

/-- The invariant of the block. -/
structure Inv (s : State) : Prop where
  /-- The configuration is admitted (R6). -/
  config : configValid s.cfg = true
  /-- The slot's marker is legal (R23). -/
  slotMarker : markerLegal s.cfg s.pm.overflowMarker
  /-- So is the marker of a snapshot that is held (R33). -/
  heldMarker : ∀ p, s.seq = .lit p → markerLegal s.cfg p.overflowMarker
  /-- A word in flight is one the block can produce (R83). -/
  inFlight : ∀ w, s.seq = .emitLo w ∨ s.seq = .emitHi w → wordLegal s.cfg w
  /-- The stream is framed (R64). -/
  stream : streamFramed s

end Sys2Proof.Machine
end

