-- ==== Sys2Proof/Certificates/Slice0/Obligations.lean ====
section
/-! DEFINITION. The statements for the provers: what the operations and the machine do, from the spec's numbered rules. -/

open Sys2Proof Sys2Proof.Machine

/-! ## The operations, one by one: the next state, the frame, and the hold -/

/-- R110. TICK always executes: the count advances modulo 2^16, the wrap sets `ovfPending`, the compare match sets
`cmpPending`, a set flag stays set, and nothing else changes. -/
def Obligations.TickAdvancesCountAndSetsFlags : Prop :=
  ∀ s : State, exec .tick s = .next { s with
    count := BitVec.ofNat 16 (s.count.toNat + 1)
    ovfPending := if s.count = 0xFFFF#16 then true else s.ovfPending
    cmpPending := if (s.count.toNat + 1) % 65536 = s.cfg.compareValue.toNat then true else s.cmpPending }

/-- R111. LINE_SET always executes: no transition changes nothing; an edge of the selected polarity moves the line, latches
the count and sets `capPending`; an edge of the other polarity moves the line only. -/
def Obligations.LineSetLatchesSelectedEdge : Prop :=
  ∀ (v : Bool) (s : State),
    (v = s.line → exec (.lineSet v) s = .next s) ∧
    (v ≠ s.line → (v = true ∧ s.edge = .rising) ∨ (v = false ∧ s.edge = .falling) →
      exec (.lineSet v) s = .next { s with line := v, icr := s.count, capPending := true }) ∧
    (v ≠ s.line → ¬((v = true ∧ s.edge = .rising) ∨ (v = false ∧ s.edge = .falling)) →
      exec (.lineSet v) s = .next { s with line := v })

/-- CAPTURE_ISR (R113, R114) with its flag set records the latched count and the exited level, restarts the count, toggles
the polarity, clears its flag and wakes the loop; the marker, the other flags and all else stay. With its flag clear it
holds: that 'no step' is a next state is the model's choice (log 3). -/
def Obligations.CaptureIsrRecordsInterval : Prop :=
  ∀ s : State,
    (s.capPending = true → exec .captureIsr s = .next { s with
      pm := { rawTicks := s.icr
              exitedLevelHigh :=
                match s.cfg.levelSource with
                | .lineSample => !s.line
                | .edgeSelect => decide (s.edge = .falling)
              overflowMarker := s.pm.overflowMarker }
      count := 0#16
      edge := if s.edge = .rising then .falling else .rising
      capPending := false
      seq := if s.seq = .asleep then .check else s.seq }) ∧
    (s.capPending = false → exec .captureIsr s = .next s)

/-- OVERFLOW_ISR (R140) with its flag set writes the marker of the current line level, clears its flag and wakes the loop;
the tick count, the level, the counter, the polarity and all else stay. With its flag clear it holds: that 'no step' is a
next state is the model's choice (log 3). -/
def Obligations.OverflowIsrRecordsMarker : Prop :=
  ∀ s : State,
    (s.ovfPending = true → exec .overflowIsr s = .next { s with
      pm := { rawTicks := s.pm.rawTicks
              exitedLevelHigh := s.pm.exitedLevelHigh
              overflowMarker := if s.line = true then s.cfg.markerHigh else s.cfg.markerLow }
      ovfPending := false
      seq := if s.seq = .asleep then .check else s.seq }) ∧
    (s.ovfPending = false → exec .overflowIsr s = .next s)

/-- COMPARE_ISR (R143) with its flag set turns the indicator off, clears its flag and wakes the loop, and nothing else
changes. With its flag clear it holds: that 'no step' is a next state is the model's choice (log 3). -/
def Obligations.CompareIsrTurnsIndicatorOff : Prop :=
  ∀ s : State,
    (s.cmpPending = true → exec .compareIsr s = .next { s with
      led := false
      cmpPending := false
      seq := if s.seq = .asleep then .check else s.seq }) ∧
    (s.cmpPending = false → exec .compareIsr s = .next s)

/-- LOOP_CHECK (R210) at `Check` goes to `Snap` exactly when `rawTicks` is not 0, else to `PreSleep`, whatever the marker.
Elsewhere it holds: that 'no step' is a next state is the model's choice (log 3). -/
def Obligations.LoopCheckTestsRawTicks : Prop :=
  ∀ s : State,
    (s.seq = .check → s.pm.rawTicks ≠ 0#16 → exec .loopCheck s = .next { s with seq := .snap }) ∧
    (s.seq = .check → s.pm.rawTicks = 0#16 → exec .loopCheck s = .next { s with seq := .preSleep }) ∧
    (s.seq ≠ .check → exec .loopCheck s = .next s)

/-- ENTER_SLEEP (R211) at `PreSleep` goes to `Asleep`, whatever the slot and the flags. Elsewhere it holds. At `Asleep` every
operation of the main loop holds. That 'no step' is a next state is the model's choice (log 3). -/
def Obligations.EnterSleepHaltsTheLoop : Prop :=
  (∀ s : State,
    (s.seq = .preSleep → exec .enterSleep s = .next { s with seq := .asleep }) ∧
    (s.seq ≠ .preSleep → exec .enterSleep s = .next s)) ∧
  (∀ (i : Instr) (s : State), s.seq = .asleep →
    i = .loopCheck ∨ i = .enterSleep ∨ i = .snapshot ∨ i = .indicatorOn ∨ i = .emitLo ∨ i = .emitHi →
    exec i s = .next s)

/-- SNAPSHOT (R180) at `Snap` reads all three fields of the slot into `Lit` and clears them in the same step; the pending
flags and all else stay. Elsewhere it holds. `Snap` is entered only by a LOOP_CHECK that found `rawTicks`
not 0, and only a CAPTURE_ISR of count 0 makes it 0 there. That a hold is a next state is the model's choice (log 3). -/
def Obligations.SnapshotReadsAndClearsSlot : Prop :=
  (∀ s : State,
    (s.seq = .snap → exec .snapshot s = .next { s with
      pm := { rawTicks := 0#16, exitedLevelHigh := false, overflowMarker := 0#8 }
      seq := .lit s.pm }) ∧
    (s.seq ≠ .snap → exec .snapshot s = .next s)) ∧
  (∀ (i : Instr) (s t : State), exec i s = .next t → s.seq ≠ .snap → t.seq = .snap →
    i = .loopCheck ∧ s.seq = .check ∧ s.pm.rawTicks ≠ 0#16) ∧
  (∀ (i : Instr) (s t : State), exec i s = .next t → s.seq = .snap → s.pm.rawTicks ≠ 0#16 → t.seq = .snap →
    t.pm.rawTicks = 0#16 → i = .captureIsr ∧ s.capPending = true ∧ s.icr = 0#16)

/-- INDICATOR_ON (R181, R182, R184) at `Lit(p)` turns the indicator on and holds the encoded word: the overflow word of a
set marker, else the level bit over the converted ticks. Nothing else changes. Elsewhere it holds: that 'no step' is a
next state is the model's choice (log 3). -/
def Obligations.IndicatorOnEncodesSnapshot : Prop :=
  (∀ (s : State) (p : PendingMeasurement), s.seq = .lit p →
    exec .indicatorOn s = .next { s with
      led := true
      seq := .emitLo (
        if p.overflowMarker ≠ 0#8 then encodeOverflow p.overflowMarker
        else ((if p.exitedLevelHigh then 0#16 else 1#16) <<< 15)
          ||| (convert (scaleDen s.cfg) p.rawTicks).setWidth 16) }) ∧
  (∀ s : State, (∀ p, s.seq ≠ .lit p) → exec .indicatorOn s = .next s)

/-- EMIT_LO (R186) at `EmitLo(w)`, when the transport takes the byte, appends the low byte of w and goes to `EmitHi(w)`. Until
the transport takes it, and at any other sequencer state, the step is held: that 'no step' is a next state is the model's
choice (log 3). One of the transport's answers, the model's own (log 4), is used up, and no other field changes but `out` and
`seq`. -/
def Obligations.EmitLoSendsLowByte : Prop :=
  ∀ s : State,
    (∀ w, s.seq = .emitLo w → transportTakes s = true → exec .emitLo s = .next { s with
      out := s.out ++ [BitVec.ofNat 8 (w.toNat % 256)]
      seq := .emitHi w
      env := { s.env with
        ready := s.env.ready.tail
        readyNo := if s.env.ready = [] then s.env.readyNo + 1 else s.env.readyNo } }) ∧
    (∀ w, s.seq = .emitLo w → transportTakes s = false → exec .emitLo s = .next { s with
      env := { s.env with
        ready := s.env.ready.tail
        readyNo := if s.env.ready = [] then s.env.readyNo + 1 else s.env.readyNo } }) ∧
    ((∀ w, s.seq ≠ .emitLo w) → exec .emitLo s = .next s)

/-- EMIT_HI (R187) at `EmitHi(w)`, when the transport takes the byte, appends the high byte of w and goes to `Check`. Until
the transport takes it, and at any other sequencer state, the step is held: that 'no step' is a next state is the model's
choice (log 3). One of the transport's answers, the model's own (log 4), is used up, and no other field changes but `out` and
`seq`. -/
def Obligations.EmitHiSendsHighByte : Prop :=
  ∀ s : State,
    (∀ w, s.seq = .emitHi w → transportTakes s = true → exec .emitHi s = .next { s with
      out := s.out ++ [BitVec.ofNat 8 (w.toNat / 256)]
      seq := .check
      env := { s.env with
        ready := s.env.ready.tail
        readyNo := if s.env.ready = [] then s.env.readyNo + 1 else s.env.readyNo } }) ∧
    (∀ w, s.seq = .emitHi w → transportTakes s = false → exec .emitHi s = .next { s with
      env := { s.env with
        ready := s.env.ready.tail
        readyNo := if s.env.ready = [] then s.env.readyNo + 1 else s.env.readyNo } }) ∧
    ((∀ w, s.seq ≠ .emitHi w) → exec .emitHi s = .next s)

/-- RESET (R260) always executes, in every state: it writes every field of the state record, with the draws (c, i, l) of the
event, which may be any values, and the configuration's BOOT_PENDING. That the draws are the head of the model's own list, one
of which is used up, is the model's choice (log 5, DESIGN CHOICE). -/
def Obligations.ResetWritesEveryField : Prop :=
  (∀ (v : Bool) (s : State), ∃ (c i : Word) (l : Bool), exec (.reset v) s = .next {
    cfg := s.cfg
    pm := { rawTicks := 0#16, exitedLevelHigh := false, overflowMarker := 0#8 }
    count := c
    icr := i
    line := v
    edge := if v then .falling else .rising
    capPending := s.cfg.bootPending.cap
    ovfPending := s.cfg.bootPending.ovf
    cmpPending := s.cfg.bootPending.cmp
    led := l
    seq := .check
    out := []
    env := { s.env with
      draws := s.env.draws.tail
      drawNo := if s.env.draws = [] then s.env.drawNo + 1 else s.env.drawNo } }) ∧
  (∀ (v : Bool) (s : State) (c i : Word) (l : Bool) (rest : List ResetDraw),
    s.env.draws = { count := c, icr := i, led := l } :: rest → ∃ t : State, exec (.reset v) s = .next t ∧
      t.count = c ∧ t.icr = i ∧ t.led = l)

/-- From R88, R87 and R89. A selector with bits 7 to 5 not zero, or a code from 0xC, or the operand bit set on a code other
than 0x1 and 0xB, names no operation: it decodes to RESERVED and the machine refuses with ReservedOp(op) on it; that the
refusal is that row's meaning and not the decoder's is the model's reading (log 10, DEDUCED). Every other selector decodes
to an operation. -/
def Obligations.ReservedSelectorsAreRefused : Prop :=
  ∀ op : Byte,
    ((op.toNat / 32 ≠ 0 ∨ 12 ≤ op.toNat % 16 ∨
        (op.toNat / 16 % 2 = 1 ∧ op.toNat % 16 ≠ 1 ∧ op.toNat % 16 ≠ 11)) →
      decode (.op8 op) = .instr (.reserved op) ∧
      ∀ s : State, exec (.reserved op) s = .refused (.reservedOp op)) ∧
    (¬(op.toNat / 32 ≠ 0 ∨ 12 ≤ op.toNat % 16 ∨
        (op.toNat / 16 % 2 = 1 ∧ op.toNat % 16 ≠ 1 ∧ op.toNat % 16 ≠ 11)) →
      ∃ i : Instr, decode (.op8 op) = .instr i ∧ ∀ o : Byte, i ≠ .reserved o)

/-- The model's reading of the three wire rows (log 11, DESIGN CHOICE): the word whose byte is due and taken executes, as
EMIT_LO or EMIT_HI of that very word; otherwise it holds. -/
def Obligations.WireWordExecutesAsItsEmission : Prop :=
  ∀ (i : Instr) (w : Word),
    ((∃ l d, i = .wireMeasurement l d ∧ w = measurementWord l d) ∨ (i = .wireOverflowHigh ∧ w = 0xFFFF#16) ∨
      (i = .wireOverflowLow ∧ w = 0x7FFF#16)) →
    ∀ s : State,
      (s.seq = .emitLo w → transportTakes s = true → ∃ t, exec i s = .next t ∧ exec .emitLo s = .next t ∧
        t.seq = .emitHi w ∧ t.out = s.out ++ [lowByte w]) ∧
      (s.seq = .emitHi w → transportTakes s = true → ∃ t, exec i s = .next t ∧ exec .emitHi s = .next t ∧
        t.seq = .check ∧ t.out = s.out ++ [highByte w]) ∧
      (s.seq = .emitLo w ∨ s.seq = .emitHi w → transportTakes s = false → ∃ e, exec i s = .next { s with env := e }) ∧
      (s.seq ≠ .emitLo w → s.seq ≠ .emitHi w → exec i s = .next s)

/-! ## Decoding, fetching and refusing -/

/-- The model's fetch (log 1 to 3, 13): the item that stands first in the script runs, and it leaves the script exactly when the
step ends it; with an empty script the next free choice runs and is used up. A wire word of duration 0 holds. -/
def Obligations.StepRunsTheDecodedInstruction : Prop :=
  (∀ (s : State) (c : Code) (rest : List Code) (i : Instr), configValid s.cfg = true → s.env.script = c :: rest →
    decode c = .instr i →
    step s = exec i { s with env := { s.env with script := if finishesItem i s then rest else c :: rest } }) ∧
  (∀ (s : State), configValid s.cfg = true → s.env.script = [] →
    step s = exec (decodeSelector (choiceSelector (Config.freeChoice s.env.choiceNo)))
      { s with env := { s.env with choiceNo := s.env.choiceNo + 1 } }) ∧
  (∀ (s : State) (i : Instr), (∀ l d, i ≠ .wireMeasurement l d) → i ≠ .wireOverflowHigh → i ≠ .wireOverflowLow →
    finishesItem i s = enabled i s) ∧
  (∀ (s : State) (c : Code) (rest : List Code) (w : Word), configValid s.cfg = true → s.env.script = c :: rest →
    decode c = .reservedWire w → step s = .next s)

/-- Words written out from the tables of R87, R91, R81 and R82 decode to what they stand for. That 0xFFFF and 0x7FFF are
the overflow rows is the model's choice (log 12). -/
def Obligations.SpecWordsDecodeToTheirRows : Prop :=
  decode (.op8 0b00000000#8) = .instr .tick ∧ decode (.op8 0b00000001#8) = .instr (.lineSet false) ∧
  decode (.op8 0b00010001#8) = .instr (.lineSet true) ∧ decode (.op8 0b00000010#8) = .instr .captureIsr ∧
  decode (.op8 0b00000011#8) = .instr .overflowIsr ∧ decode (.op8 0b00000100#8) = .instr .compareIsr ∧
  decode (.op8 0b00000101#8) = .instr .loopCheck ∧ decode (.op8 0b00000110#8) = .instr .enterSleep ∧
  decode (.op8 0b00000111#8) = .instr .snapshot ∧ decode (.op8 0b00001000#8) = .instr .indicatorOn ∧
  decode (.op8 0b00001001#8) = .instr .emitLo ∧ decode (.op8 0b00001010#8) = .instr .emitHi ∧
  decode (.op8 0b00001011#8) = .instr (.reset false) ∧ decode (.op8 0b00011011#8) = .instr (.reset true) ∧
  decode (.wire16 0x1000#16) = .instr (.wireMeasurement false 4096#15) ∧
  decode (.wire16 0x9000#16) = .instr (.wireMeasurement true 4096#15) ∧
  decode (.wire16 0xFFFF#16) = .instr .wireOverflowHigh ∧ decode (.wire16 0x7FFF#16) = .instr .wireOverflowLow

/-- A configuration that fails one of the clauses of R6 is refused with BadConfig, whatever the item, and no other step is.
That the test stands at every step is the model's choice (log 14, DESIGN CHOICE). -/
def Obligations.InvalidConfigurationIsRefused : Prop :=
  ∀ s : State, step s = .refused .badConfig ↔
    ¬(1 ≤ s.cfg.prescale ∧ 1 ≤ s.cfg.oscHz / s.cfg.prescale / 4 ∧
      s.cfg.markerHigh ≠ 0#8 ∧ s.cfg.markerLow ≠ 0#8 ∧ s.cfg.markerHigh ≠ s.cfg.markerLow)

/-- Decoding the encoding of a well-formed instruction gives it back, as an item and as bytes (encodings of R81, R82, R86
and R87; the row of 0xFFFF and 0x7FFF is the model's choice, log 12). -/
def Obligations.DecodeEncodeRoundTrip : Prop :=
  ∀ i : Instr, i.wf = true → decode (encode i) = .instr i ∧ decodeBytes (encode i).bytes = .item (.instr i)

/-- Every item has one meaning: what decodes is well formed and encodes back to the item, and only the two words of
duration 0 decode to nothing (R83's inference; log 12 and 13). -/
def Obligations.EncodeDecodeRoundTrip : Prop :=
  (∀ (c : Code) (i : Instr), decode c = .instr i → i.wf = true ∧ encode i = c) ∧
  (∀ (c : Code) (w : Word), decode c = .reservedWire w ↔ c = .wire16 w ∧ (w = 0x0000#16 ∨ w = 0x8000#16))

/-! ## Reset -/

/-- The state after reset: the zeroed slot of R21 to R23, `Check` and the empty stream of R33 and R35, and the polarity R27
gives for its line level. That it stands under the reference configuration of R5, with clear flags as BOOT_PENDING, SCALE_DEN
15625 and the markers 0xFF and 0x7F, is the model's choice (log 8). Its line level, count, latch and indicator are too (log 6)
and are not stated. -/
def Obligations.StateAfterResetHasTheSpecsValues : Prop :=
  State.reset.pm = { rawTicks := 0#16, exitedLevelHigh := false, overflowMarker := 0#8 } ∧
  State.reset.capPending = false ∧ State.reset.ovfPending = false ∧ State.reset.cmpPending = false ∧
  State.reset.edge = (if State.reset.line then Edge.falling else Edge.rising) ∧
  State.reset.seq = .check ∧ State.reset.out = [] ∧
  scaleDen State.reset.cfg = 15625 ∧ State.reset.cfg.markerHigh = 0xFF#8 ∧ State.reset.cfg.markerLow = 0x7F#8

/-- R261's entry into Idle, through the model's script (log 1). A scripted `reset v`, `check`, `sleep` runs in three steps: whatever the state before and whatever the
draws, the loop is asleep under an empty slot, the line is at the operand's level, and the stream is empty. -/
def Obligations.LoopEntersIdleAfterReset : Prop :=
  ∀ (v : Bool) (s : State) (rest : List Code), configValid s.cfg = true →
    s.env.script = .op8 (if v then 0x1B#8 else 0x0B#8) :: .op8 0x05#8 :: .op8 0x06#8 :: rest →
    ∃ a b t : State, step s = .next a ∧ step a = .next b ∧ step b = .next t ∧
      a.seq = .check ∧ b = { a with seq := .preSleep, env := b.env } ∧ t = { a with seq := .asleep, env := t.env } ∧
      t.line = v ∧ t.pm = PendingMeasurement.zero ∧ t.out = [] ∧ t.env.script = rest

/-! ## The converter and the wire words -/

/-- R161, R163. Convert is the exact floor of t*4096/SCALE_DEN, clamped to 32767, and 1 instead of 0. -/
def Obligations.ConvertSaturatesAndFloors : Prop :=
  ∀ (den : Nat) (t : Word), 1 ≤ den →
    (t.toNat * 4096 / den > 32767 → convert den t = 32767#15) ∧
    (t.toNat * 4096 / den = 0 → convert den t = 1#15) ∧
    (1 ≤ t.toNat * 4096 / den → t.toNat * 4096 / den ≤ 32767 → (convert den t).toNat = t.toNat * 4096 / den)

/-- The spec's inference R165: the converter's range and monotonicity, and its largest value in a configuration. -/
def Obligations.ConvertIsMonotoneInRange : Prop :=
  ∀ den : Nat, 1 ≤ den →
    (∀ t : Word, 1 ≤ (convert den t).toNat ∧ (convert den t).toNat ≤ 32767) ∧
    (∀ t u : Word, t.toNat ≤ u.toNat → (convert den t).toNat ≤ (convert den u).toNat) ∧
    (∀ t : Word, 32767 ≤ t.toNat * 4096 / den → (convert den t).toNat = 32767) ∧
    (∀ t : Word, (convert den t).toNat ≤ min 32767 (max 1 (65535 * 4096 / den))) ∧
    (convert den 0xFFFF#16).toNat = min 32767 (max 1 (65535 * 4096 / den))

/-- The spec's inference R166. Saturation happens exactly from t = 8*SCALE_DEN on: there `scaled` exceeds 32767 and Convert
is 32767, and below it Convert is `scaled` itself, raised to 1. So it happens for some 16-bit t exactly when SCALE_DEN ≤ 8191,
Convert reaches 32767 exactly when SCALE_DEN ≤ 8192, and in the reference configuration it never happens. -/
def Obligations.SaturationThreshold : Prop :=
  (∀ den : Nat, 1 ≤ den →
    (∀ t : Word, scaled den t > 32767 ↔ 8 * den ≤ t.toNat) ∧
    (∀ t : Word, 8 * den ≤ t.toNat → convert den t = 32767#15) ∧
    (∀ t : Word, t.toNat < 8 * den → (convert den t).toNat = max 1 (scaled den t)) ∧
    ((∃ t : Word, scaled den t > 32767) ↔ den ≤ 8191) ∧
    ((∃ t : Word, convert den t = 32767#15) ↔ den ≤ 8192)) ∧
  (∀ (c t : Word), (convert (scaleDen (Config.reference c)) t).toNat = max 1 (scaled (scaleDen (Config.reference c)) t) ∧
    (convert (scaleDen (Config.reference c)) t).toNat ≤ 17179)

/-- The spec's inference R167. The zero floor applies exactly when t*4096 < SCALE_DEN; in the reference configuration the result is 1 exactly for t in
0..7. -/
def Obligations.ZeroFloorRegion : Prop :=
  (∀ (den : Nat) (t : Word), 1 ≤ den → (t.toNat * 4096 / den = 0 ↔ t.toNat * 4096 < den)) ∧
  (∀ (c : Word) (t : Word), convert (scaleDen (Config.reference c)) t = 1#15 ↔ t.toNat ≤ 7) ∧
  (∀ c : Word, convert (scaleDen (Config.reference c)) 8#16 = 2#15)

/-- The spec's inference R168. The round trip through the inverse scale is within one wire unit, for an unsaturated and unfloored result. -/
def Obligations.InverseScaleWithinOneUnit : Prop :=
  ∀ (den : Nat) (t : Word), 1 ≤ den → 1 ≤ t.toNat * 4096 / den → t.toNat * 4096 / den ≤ 32767 →
    (convert den t).toNat * den ≤ t.toNat * 4096 ∧ t.toNat * 4096 < ((convert den t).toNat + 1) * den

/-- R183. A snapshot with a set marker is encoded with the marker as the high byte and 0xFF as the low byte, whatever the
configuration and the rest of the snapshot: 0xFFFF for the marker 0xFF (HIGH), 0x7FFF for 0x7F (LOW). -/
def Obligations.OverflowWordCarriesTheMarker : Prop :=
  ∀ (c : Config) (p : PendingMeasurement), p.overflowMarker ≠ 0#8 →
    (encodeWord c p).toNat = p.overflowMarker.toNat * 256 + 255 ∧
    serialize (encodeWord c p) = [0xFF#8, p.overflowMarker] ∧
    (p.overflowMarker = 0xFF#8 → encodeWord c p = 0xFFFF#16) ∧
    (p.overflowMarker = 0x7F#8 → encodeWord c p = 0x7FFF#16)

/-- The spec's inference R83. No word of duration 0 is ever encoded, so 0x0000 and 0x8000 never are. -/
def Obligations.ReservedWordsAreNeverEncoded : Prop :=
  ∀ (c : Config) (p : PendingMeasurement),
    (encodeWord c p).extractLsb' 0 15 ≠ 0#15 ∧ encodeWord c p ≠ 0x0000#16 ∧ encodeWord c p ≠ 0x8000#16

/-- The spec's inference R84. A measurement word can equal an overflow word exactly when SCALE_DEN ≤ 8192, and then it is 0x7FFF for HIGH and 0xFFFF
for LOW. -/
def Obligations.WireFormatsCollideExactlyUpTo8192 : Prop :=
  ∀ den : Nat, 1 ≤ den →
    ((∃ (t : Word) (hi : Bool), encodeMeasurement den t hi = 0xFFFF#16 ∨ encodeMeasurement den t hi = 0x7FFF#16) ↔
      den ≤ 8192) ∧
    (∀ (t : Word) (hi : Bool), encodeMeasurement den t hi = 0x7FFF#16 → hi = true ∧ convert den t = 32767#15) ∧
    (∀ (t : Word) (hi : Bool), encodeMeasurement den t hi = 0xFFFF#16 → hi = false ∧ convert den t = 32767#15)

/-- The spec's inference R85, given there for tests (log 16). A host that reads the two bytes as R85 says recovers from every snapshot, when SCALE_DEN ≥ 8193: the gap's level from an
overflow word, the exited level and the converted duration from a measurement word. -/
def Obligations.HostRecoversWhatWasEncoded : Prop :=
  ∀ (c : Config) (p : PendingMeasurement), c.markerHigh = 0xFF#8 → c.markerLow = 0x7F#8 → 8193 ≤ scaleDen c →
    (p.overflowMarker = c.markerHigh →
      hostRead (scaleDen c) (lowByte (encodeWord c p)) (highByte (encodeWord c p)) = .overflow true) ∧
    (p.overflowMarker = c.markerLow →
      hostRead (scaleDen c) (lowByte (encodeWord c p)) (highByte (encodeWord c p)) = .overflow false) ∧
    (p.overflowMarker = 0#8 →
      hostRead (scaleDen c) (lowByte (encodeWord c p)) (highByte (encodeWord c p)) =
        .measurement p.exitedLevelHigh (convert (scaleDen c) p.rawTicks))

/-- R191. With a set marker the snapshot's ticks and level affect nothing: INDICATOR_ON goes to the same state. -/
def Obligations.RemainderBesideMarkerIsDiscarded : Prop :=
  ∀ (s : State) (m : Byte) (t u : Word) (a b : Bool), m ≠ 0#8 →
    exec .indicatorOn { s with seq := .lit { rawTicks := t, exitedLevelHigh := a, overflowMarker := m } } =
      exec .indicatorOn { s with seq := .lit { rawTicks := u, exitedLevelHigh := b, overflowMarker := m } }

/-! ## Who writes what -/

/-- The slot's writers (R37): an operation other than those named leaves the field as it was. -/
def Obligations.SlotFieldsHaveOnlyTheirWriters : Prop :=
  ∀ (i : Instr) (s t : State), exec i s = .next t → isReset i = false →
    (i ≠ .captureIsr → i ≠ .snapshot → t.pm.rawTicks = s.pm.rawTicks ∧ t.pm.exitedLevelHigh = s.pm.exitedLevelHigh) ∧
    (i ≠ .overflowIsr → i ≠ .snapshot → t.pm.overflowMarker = s.pm.overflowMarker)

/-- The timer's and the flags' writers (R37), and the direction in which each may write a flag. -/
def Obligations.TimerFieldsHaveOnlyTheirWriters : Prop :=
  ∀ (i : Instr) (s t : State), exec i s = .next t → isReset i = false →
    (i ≠ .tick → i ≠ .captureIsr → t.count = s.count) ∧
    (isLineSet i = false → t.icr = s.icr ∧ t.line = s.line) ∧
    (i ≠ .captureIsr → t.edge = s.edge) ∧
    (s.capPending = false → t.capPending = true → isLineSet i = true) ∧
    (s.capPending = true → t.capPending = false → i = .captureIsr) ∧
    (s.ovfPending = false → t.ovfPending = true → i = .tick) ∧
    (s.ovfPending = true → t.ovfPending = false → i = .overflowIsr) ∧
    (s.cmpPending = false → t.cmpPending = true → i = .tick) ∧
    (s.cmpPending = true → t.cmpPending = false → i = .compareIsr)

/-- The outputs' writers (R37), the loop's control position, and the configuration, which nothing writes (R4). The wire rows
stand for EMIT_LO and EMIT_HI (log 11). -/
def Obligations.OutputsHaveOnlyTheirWriters : Prop :=
  ∀ (i : Instr) (s t : State), exec i s = .next t →
    t.cfg = s.cfg ∧
    (t.led ≠ s.led → i = .indicatorOn ∨ i = .compareIsr ∨ isReset i = true) ∧
    (t.out ≠ s.out → i = .emitLo ∨ i = .emitHi ∨ isReset i = true ∨ i = .wireOverflowHigh ∨ i = .wireOverflowLow ∨
      ∃ l d, i = .wireMeasurement l d) ∧
    (i = .tick ∨ isLineSet i = true → t.seq = s.seq)

/-- What is enabled and what holds (R87, R11; the hold's form is log 3): an operation that is not enabled changes no field of the block; the held
transport answer aside, not even the model's own. -/
def Obligations.DisabledOperationsHold : Prop :=
  ∀ (i : Instr) (s : State), (∀ op, i ≠ .reserved op) → enabled i s = false →
    ∃ e : Env, exec i s = .next { s with env := e } ∧ (txValid s = false → e = s.env)

/-- From R35. Between two RESETs the stream only grows, by at most one byte a step; a RESET empties it. -/
def Obligations.StreamGrowsByAtMostOneByte : Prop :=
  ∀ (i : Instr) (s t : State), exec i s = .next t →
    (isReset i = true → t.out = []) ∧
    (isReset i = false → t.out = s.out ∨ ∃ b : Byte, txData s = some b ∧ t.out = s.out ++ [b])

/-! ## The handlers and the loop -/

/-- R212. Every handler step, with its flag set, executes and ends with the wake: `Asleep` becomes `Check` and every other
sequencer state stays. -/
def Obligations.EveryHandlerWakesTheLoop : Prop :=
  ∀ (i : Instr) (s : State), i = .captureIsr ∨ i = .overflowIsr ∨ i = .compareIsr → enabled i s = true →
    ∃ t : State, exec i s = .next t ∧ (s.seq = .asleep → t.seq = .check) ∧ (s.seq ≠ .asleep → t.seq = s.seq)

/-- From R245 and R37. The sleep is left only by a handler or by RESET, and while the loop sleeps nothing of the slot or the stream changes but
by those. -/
def Obligations.SleepEndsOnlyByHandlerOrReset : Prop :=
  ∀ (i : Instr) (s t : State), s.seq = .asleep → exec i s = .next t →
    (t.seq ≠ .asleep → i = .captureIsr ∨ i = .overflowIsr ∨ i = .compareIsr ∨ isReset i = true) ∧
    (isReset i = false → t.out = s.out) ∧
    (t.pm ≠ s.pm → i = .captureIsr ∨ i = .overflowIsr ∨ isReset i = true)

/-- From R113, R140 and R143. The order of two handlers, with nothing in between, changes nothing. R234's remark that their
order changes `count` in a race is read as one about the place of the TICK that wraps, before or after the capture (R239,
R268). Run one after the other, whichever is first, they reach the same state. -/
def Obligations.HandlersCommute : Prop :=
  ∀ (i j : Instr) (s : State), (i = .captureIsr ∨ i = .overflowIsr ∨ i = .compareIsr) →
    (j = .captureIsr ∨ j = .overflowIsr ∨ j = .compareIsr) →
    ∃ t : State, execAll [i, j] s = .next t ∧ execAll [j, i] s = .next t

/-- The spec's inference R141. Repeated rollovers with the line unchanged restate the same marker: whatever runs in between, but for a SNAPSHOT, a
RESET or a LINE_SET. -/
def Obligations.RepeatedOverflowRestatesTheMarker : Prop :=
  ∀ (ops : List Instr) (s t u : State), s.ovfPending = true → exec .overflowIsr s = .next t →
    (∀ i ∈ ops, i ≠ .snapshot ∧ isReset i = false ∧ isLineSet i = false) →
    execAll (ops ++ [.overflowIsr]) t = .next u → u.pm.overflowMarker = t.pm.overflowMarker

/-- The spec's inferences R117 and R266. A capture of count 0 reads as no pending measurement: it erases an undrained one and the loop goes to sleep; if the
check had already passed, the drain emits a measurement word of duration 1. -/
def Obligations.ZeroCaptureIsLost : Prop :=
  ∀ s : State, s.capPending = true → s.icr = 0#16 →
    (s.seq = .check → ∃ t : State, execAll [.captureIsr, .loopCheck] s = .next t ∧ t.pm.rawTicks = 0#16 ∧
      t.seq = .preSleep ∧ t.out = s.out) ∧
    (s.seq = .snap → s.pm.overflowMarker = 0#8 → 1 ≤ scaleDen s.cfg →
      ∃ t : State, execAll [.captureIsr, .snapshot, .indicatorOn] s = .next t ∧
        t.seq = .emitLo (measurementWord (!exitedLevel s) 1#15))

/-- The spec's inference R188, undisturbed; that the two emits use up two of the transport's answers is the model's choice
(log 4). One pass: from `Check` with a measurement pending and a transport that takes both bytes, `drain` executes,
appends the two bytes of the slot's encoding, clears the slot and is back at `Check`. -/
def Obligations.OnePassDrainsTheSlot : Prop :=
  ∀ (s : State) (answers : List Bool), s.seq = .check → s.pm.rawTicks ≠ 0#16 → s.env.ready = true :: true :: answers →
    execAll pseudoDrain s = .next { s with
      pm := { rawTicks := 0#16, exitedLevelHigh := false, overflowMarker := 0#8 }
      led := true
      seq := .check
      out := s.out ++ [lowByte (encodeWord s.cfg s.pm), highByte (encodeWord s.cfg s.pm)]
      env := { s.env with ready := answers } }

/-- The spec's inference R190, with a transport that takes both bytes (its answers are the model's, log 4). An overflow recorded before a capture decides the drain: exactly the overflow word of the level at the rollover handler
comes out, nothing for the capture's ticks, and the slot is empty. -/
def Obligations.OverflowTakesTheDrain : Prop :=
  ∀ (s : State) (answers : List Bool), configValid s.cfg = true → s.seq = .check → s.ovfPending = true →
    s.capPending = true → s.icr ≠ 0#16 → s.env.ready = true :: true :: answers →
    ∃ t : State, execAll ([.overflowIsr, .captureIsr] ++ pseudoDrain) s = .next t ∧
      t.out = s.out ++ [0xFF#8, if s.line then s.cfg.markerHigh else s.cfg.markerLow] ∧
      t.pm = PendingMeasurement.zero ∧ t.seq = .check

/-- The spec's inference R215. A set marker alone starts no drain: the rollover wakes the loop, the loop finds `rawTicks` 0 and sleeps again, and
nothing is emitted; the marker stays. -/
def Obligations.MarkerAloneStartsNoDrain : Prop :=
  ∀ s : State, s.seq = .asleep → s.ovfPending = true → s.pm.rawTicks = 0#16 →
    ∃ t : State, execAll [.overflowIsr, .loopCheck, .enterSleep] s = .next t ∧ t.seq = .asleep ∧ t.out = s.out ∧
      t.pm.rawTicks = 0#16 ∧ t.pm.overflowMarker = if s.line then s.cfg.markerHigh else s.cfg.markerLow

/-- The spec's inference R264. The lost wake-up: a capture between the empty check and the sleep leaves the loop asleep with a measurement pending; the
compare handler recovers it, and the rollover handler turns it into an overflow word's snapshot. -/
def Obligations.LostWakeUpWindow : Prop :=
  ∀ s : State, s.seq = .check → s.pm.rawTicks = 0#16 → s.capPending = true → s.icr ≠ 0#16 →
    ∃ t : State, execAll [.loopCheck, .captureIsr, .enterSleep] s = .next t ∧ t.seq = .asleep ∧ t.pm.rawTicks = s.icr ∧
      (t.cmpPending = true → ∃ u : State, execAll [.compareIsr, .loopCheck, .snapshot] t = .next u ∧
        u.seq = .lit { rawTicks := s.icr, exitedLevelHigh := exitedLevel s, overflowMarker := s.pm.overflowMarker }) ∧
      (t.ovfPending = true → ∃ u : State, execAll [.overflowIsr, .loopCheck, .snapshot] t = .next u ∧
        u.seq = .lit { rawTicks := s.icr, exitedLevelHigh := exitedLevel s, overflowMarker := markerFor s.cfg s.line })

/-- The spec's inference R272. A short glitch: the line falls and rises again before the handler. The handler records the level of LEVEL_SOURCE, the
polarity no longer agrees with the line, and the next fall latches nothing. -/
def Obligations.GlitchDesynchronisesPolarity : Prop :=
  ∀ s : State, s.line = true → s.edge = .falling →
    ∃ t : State, execAll [.lineSet false, .lineSet true, .captureIsr] s = .next t ∧
      t.pm.rawTicks = s.count ∧
      (s.cfg.levelSource = .lineSample → t.pm.exitedLevelHigh = false) ∧
      (s.cfg.levelSource = .edgeSelect → t.pm.exitedLevelHigh = true) ∧
      t.line = true ∧ t.edge = .rising ∧
      exec (.lineSet false) t = .next { t with line := false }

/-- The spec's inference R268. A capture and a rollover race: the edge latches, then the count wraps. In either handler order the slot holds the valid
count beside the marker of the level after the edge, and the next drain's word is the overflow word. -/
def Obligations.CaptureRolloverRace : Prop :=
  ∀ s : State, configValid s.cfg = true → s.capPending = true → s.count = 0xFFFF#16 → s.seq = .check → s.icr ≠ 0#16 →
    ∃ t : State, execAll [.tick, .overflowIsr, .captureIsr, .loopCheck, .snapshot, .indicatorOn] s = .next t ∧
      execAll [.tick, .captureIsr, .overflowIsr, .loopCheck, .snapshot, .indicatorOn] s = .next t ∧
      t.seq = .emitLo (encodeOverflow (if s.line then s.cfg.markerHigh else s.cfg.markerLow)) ∧
      ∃ u : State, execAll [.tick, .captureIsr, .loopCheck, .snapshot, .overflowIsr] s = .next u ∧
        u.seq = .lit { rawTicks := s.icr, exitedLevelHigh := exitedLevel s, overflowMarker := s.pm.overflowMarker } ∧
        u.pm = { rawTicks := 0#16, exitedLevelHigh := false,
                 overflowMarker := if s.line then s.cfg.markerHigh else s.cfg.markerLow }

/-- The spec's inference R112. While polarity and line agree, the next transition latches the count, and its handler makes them agree again; what runs
in between keeps the agreement. -/
def Obligations.AgreeingPolarityCatchesTheNextEdge : Prop :=
  (∀ (s : State) (v : Bool), polarityAgrees s → v ≠ s.line →
    ∃ t : State, exec (.lineSet v) s = .next t ∧ t.icr = s.count ∧ t.capPending = true ∧
      ∃ u : State, exec .captureIsr t = .next u ∧ polarityAgrees u ∧ u.pm.rawTicks = s.count ∧
        u.pm.exitedLevelHigh = s.line) ∧
  (∀ (i : Instr) (s t : State), polarityAgrees s → isLineSet i = false → i ≠ .captureIsr → exec i s = .next t →
    polarityAgrees t)

/-- From R32. The indicator influences nothing: in a run from a state that differs only in `led`, the same things happen, and the end
states differ at most in `led`. -/
def Obligations.IndicatorInfluencesNothing : Prop :=
  ∀ (ops : List Instr) (s t : State) (b : Bool), execAll ops s = .next t →
    ∃ c : Bool, execAll ops { s with led := b } = .next { t with led := c }

/-! ## Time in ticks -/

/-- From R110. n ticks advance the count by n modulo 2^16 and change no other field but the two flags; a wrap among them sets
`ovfPending`, and nothing else does. -/
def Obligations.TicksAccumulate : Prop :=
  ∀ (n : Nat) (s : State), ∃ o c : Bool,
    execAll (pseudoTicks n) s = .next { s with count := s.count + BitVec.ofNat 16 n, ovfPending := o, cmpPending := c } ∧
      (o = true ↔ s.ovfPending = true ∨ 65536 ≤ s.count.toNat + n)

/-- The spec's inference R144. After a capture's handler the compare event comes COMPARE_VALUE ticks later, when that is at least 1, and not before. -/
def Obligations.CompareEventComesAfterCompareValueTicks : Prop :=
  ∀ s t : State, s.capPending = true → s.cmpPending = false → 1 ≤ s.cfg.compareValue.toNat →
    exec .captureIsr s = .next t →
    (∃ u : State, execAll (pseudoTicks s.cfg.compareValue.toNat) t = .next u ∧ u.cmpPending = true) ∧
    (∀ n < s.cfg.compareValue.toNat, ∃ u : State, execAll (pseudoTicks n) t = .next u ∧ u.cmpPending = false)

/-- The spec's inference R116. What `rawTicks` measures: the count at the start of the run plus the TICK steps up to the latching edge, modulo 2^16,
whatever other steps interleave. The run holds no other capture handler, no RESET, and no further edge after the latch. -/
def Obligations.CaptureMeasuresTicksToTheEdge : Prop :=
  ∀ (before after : List Instr) (v : Bool) (s u t : State),
    (∀ i ∈ before, i ≠ .captureIsr ∧ isReset i = false) →
    (∀ i ∈ after, i ≠ .captureIsr ∧ isReset i = false ∧ isLineSet i = false) →
    execAll before s = .next u → v ≠ u.line → s.edge = (if v then .rising else .falling) →
    execAll ([.lineSet v] ++ after ++ [.captureIsr]) u = .next t →
    t.pm.rawTicks = s.count + BitVec.ofNat 16 (tickCount before) ∧ t.count = 0#16 ∧ t.capPending = false

/-- From R275. A sleeping loop is woken within 65536 TICKs by the rollover they bring: it sleeps on until then, and the handler then
runs and the loop is at `Check`. -/
def Obligations.SleepingLoopIsWokenWithinOneEpoch : Prop :=
  ∀ s : State, s.seq = .asleep → ∃ (n : Nat) (t u : State), n ≤ 65536 ∧ execAll (pseudoTicks n) s = .next t ∧
    t.seq = .asleep ∧ t.ovfPending = true ∧ exec .overflowIsr t = .next u ∧ u.seq = .check

/-- From R275 and R214; the transport's answers are the model's (log 4). No state is stuck: from every state whose transport takes the next two bytes, some run of at most 65543 operations, with
neither a RESET nor a LINE_SET among them, brings the loop to `Check`. -/
def Obligations.EveryStateCanReachCheck : Prop :=
  ∀ (s : State) (answers : List Bool), s.env.ready = true :: true :: answers →
    ∃ (ops : List Instr) (t : State), ops.length ≤ 65543 ∧ (∀ i ∈ ops, isReset i = false ∧ isLineSet i = false) ∧
      execAll ops s = .next t ∧ t.seq = .check

/-- From R214, through the model's free scheduler (log 2). No terminal state: with a valid configuration and nothing scripted, every step answers a next state, for which the same
holds again, whatever the free choices are. -/
def Obligations.FreeRunNeverStops : Prop :=
  ∀ s : State, configValid s.cfg = true → s.env.script = [] →
    ∃ t : State, step s = .next t ∧ configValid t.cfg = true ∧ t.env.script = []

/-! ## Headline results -/

/-- From R6, R23, R64, R83 and R165. Every step keeps the invariant of the block: an admitted configuration, legal markers in the slot and in a held
snapshot, only legal words in flight, and a stream of whole legal words, low byte first, with at most one half-sent word. -/
def Obligations.StepKeepsTheBlockInvariant : Prop :=
  ∀ s t : State, Inv s → step s = .next t → Inv t

/-- The invariant holds right after reset, for the state of log 6 and log 8. -/
def Obligations.BlockInvariantHoldsAtReset : Prop :=
  Inv State.reset

/-- The spec's inferences R72 and R189. The stream is the snapshots, in order: over any run without a RESET, whatever interleaves, the bytes on the stream and
the bytes still owed grow by exactly the serialized encodings of the slot values that the SNAPSHOT steps took. -/
def Obligations.StreamIsTheSnapshotsInOrder : Prop :=
  ∀ (ops : List Instr) (s t : State), (∀ i ∈ ops, isReset i = false) → execAll ops s = .next t →
    t.out ++ owedBytes t =
      s.out ++ owedBytes s ++ (snapshotsTaken ops s).flatMap (fun p => serialize (encodeWord s.cfg p))

/-! ## Refusals -/

/-- R231's two reasons and no other, and no fault. The machine refuses exactly under an invalid configuration, with
BadConfig, and on a reserved selector, with that selector. Where the two tests stand is the model's choice (log 10, 14). -/
def Obligations.RefusalsAreExactlyTheTwoReasons : Prop :=
  ∀ s : State, (∀ f : Fault, step s ≠ .fault f) ∧
    ∀ r : Refusal, step s = .refused r ↔
      (r = .badConfig ∧ configValid s.cfg = false) ∨
      (∃ (op : Byte) (rest : List Code), r = .reservedOp op ∧ configValid s.cfg = true ∧ s.env.script = .op8 op :: rest ∧
        selectorReserved op = true)
end

