-- ==== Sys2Proof/Laws/State.lean ====
section
/-! SUPPORT. The small lemmas of the state: what each named update leaves in each field. -/

namespace Sys2Proof.Machine

/-! ## Projections of the zeroed slot -/

@[simp] theorem zero_rawTicks : PendingMeasurement.zero.rawTicks = 0#16 := rfl
@[simp] theorem zero_exitedLevelHigh : PendingMeasurement.zero.exitedLevelHigh = false := rfl
@[simp] theorem zero_overflowMarker : PendingMeasurement.zero.overflowMarker = 0#8 := rfl

/-! ## `wake` touches the sequencer only (R212) -/

@[simp] theorem wake_cfg (s : State) : (wake s).cfg = s.cfg := rfl
@[simp] theorem wake_pm (s : State) : (wake s).pm = s.pm := rfl
@[simp] theorem wake_count (s : State) : (wake s).count = s.count := rfl
@[simp] theorem wake_icr (s : State) : (wake s).icr = s.icr := rfl
@[simp] theorem wake_edge (s : State) : (wake s).edge = s.edge := rfl
@[simp] theorem wake_capPending (s : State) : (wake s).capPending = s.capPending := rfl
@[simp] theorem wake_ovfPending (s : State) : (wake s).ovfPending = s.ovfPending := rfl
@[simp] theorem wake_cmpPending (s : State) : (wake s).cmpPending = s.cmpPending := rfl
@[simp] theorem wake_line (s : State) : (wake s).line = s.line := rfl
@[simp] theorem wake_led (s : State) : (wake s).led = s.led := rfl
@[simp] theorem wake_out (s : State) : (wake s).out = s.out := rfl
@[simp] theorem wake_env (s : State) : (wake s).env = s.env := rfl
@[simp] theorem wake_seq (s : State) : (wake s).seq = if s.seq = .asleep then .check else s.seq := rfl

/-! ## `spendReady` uses up a transport answer and touches no field of the block -/

@[simp] theorem spendReady_cfg (s : State) : (spendReady s).cfg = s.cfg := rfl
@[simp] theorem spendReady_pm (s : State) : (spendReady s).pm = s.pm := rfl
@[simp] theorem spendReady_count (s : State) : (spendReady s).count = s.count := rfl
@[simp] theorem spendReady_icr (s : State) : (spendReady s).icr = s.icr := rfl
@[simp] theorem spendReady_edge (s : State) : (spendReady s).edge = s.edge := rfl
@[simp] theorem spendReady_capPending (s : State) : (spendReady s).capPending = s.capPending := rfl
@[simp] theorem spendReady_ovfPending (s : State) : (spendReady s).ovfPending = s.ovfPending := rfl
@[simp] theorem spendReady_cmpPending (s : State) : (spendReady s).cmpPending = s.cmpPending := rfl
@[simp] theorem spendReady_line (s : State) : (spendReady s).line = s.line := rfl
@[simp] theorem spendReady_led (s : State) : (spendReady s).led = s.led := rfl
@[simp] theorem spendReady_seq (s : State) : (spendReady s).seq = s.seq := rfl
@[simp] theorem spendReady_out (s : State) : (spendReady s).out = s.out := rfl

/-! ## `spendDraw` uses up a RESET argument and touches no field of the block -/

@[simp] theorem spendDraw_cfg (s : State) : (spendDraw s).cfg = s.cfg := rfl
@[simp] theorem spendDraw_pm (s : State) : (spendDraw s).pm = s.pm := rfl
@[simp] theorem spendDraw_count (s : State) : (spendDraw s).count = s.count := rfl
@[simp] theorem spendDraw_icr (s : State) : (spendDraw s).icr = s.icr := rfl
@[simp] theorem spendDraw_edge (s : State) : (spendDraw s).edge = s.edge := rfl
@[simp] theorem spendDraw_capPending (s : State) : (spendDraw s).capPending = s.capPending := rfl
@[simp] theorem spendDraw_ovfPending (s : State) : (spendDraw s).ovfPending = s.ovfPending := rfl
@[simp] theorem spendDraw_cmpPending (s : State) : (spendDraw s).cmpPending = s.cmpPending := rfl
@[simp] theorem spendDraw_line (s : State) : (spendDraw s).line = s.line := rfl
@[simp] theorem spendDraw_led (s : State) : (spendDraw s).led = s.led := rfl
@[simp] theorem spendDraw_seq (s : State) : (spendDraw s).seq = s.seq := rfl
@[simp] theorem spendDraw_out (s : State) : (spendDraw s).out = s.out := rfl

/-! ## `advanceChoice` uses up a choice and touches no field of the block -/

@[simp] theorem advanceChoice_cfg (i : Instr) (s : State) : (advanceChoice i s).cfg = s.cfg := rfl
@[simp] theorem advanceChoice_pm (i : Instr) (s : State) : (advanceChoice i s).pm = s.pm := rfl
@[simp] theorem advanceChoice_count (i : Instr) (s : State) : (advanceChoice i s).count = s.count := rfl
@[simp] theorem advanceChoice_icr (i : Instr) (s : State) : (advanceChoice i s).icr = s.icr := rfl
@[simp] theorem advanceChoice_edge (i : Instr) (s : State) : (advanceChoice i s).edge = s.edge := rfl
@[simp] theorem advanceChoice_capPending (i : Instr) (s : State) : (advanceChoice i s).capPending = s.capPending := rfl
@[simp] theorem advanceChoice_ovfPending (i : Instr) (s : State) : (advanceChoice i s).ovfPending = s.ovfPending := rfl
@[simp] theorem advanceChoice_cmpPending (i : Instr) (s : State) : (advanceChoice i s).cmpPending = s.cmpPending := rfl
@[simp] theorem advanceChoice_line (i : Instr) (s : State) : (advanceChoice i s).line = s.line := rfl
@[simp] theorem advanceChoice_led (i : Instr) (s : State) : (advanceChoice i s).led = s.led := rfl
@[simp] theorem advanceChoice_seq (i : Instr) (s : State) : (advanceChoice i s).seq = s.seq := rfl
@[simp] theorem advanceChoice_out (i : Instr) (s : State) : (advanceChoice i s).out = s.out := rfl

/-! ## `placeCode` touches the script only -/

@[simp] theorem placeCode_cfg (c : Code) (s : State) : (placeCode c s).cfg = s.cfg := rfl
@[simp] theorem placeCode_pm (c : Code) (s : State) : (placeCode c s).pm = s.pm := rfl
@[simp] theorem placeCode_count (c : Code) (s : State) : (placeCode c s).count = s.count := rfl
@[simp] theorem placeCode_icr (c : Code) (s : State) : (placeCode c s).icr = s.icr := rfl
@[simp] theorem placeCode_edge (c : Code) (s : State) : (placeCode c s).edge = s.edge := rfl
@[simp] theorem placeCode_capPending (c : Code) (s : State) : (placeCode c s).capPending = s.capPending := rfl
@[simp] theorem placeCode_ovfPending (c : Code) (s : State) : (placeCode c s).ovfPending = s.ovfPending := rfl
@[simp] theorem placeCode_cmpPending (c : Code) (s : State) : (placeCode c s).cmpPending = s.cmpPending := rfl
@[simp] theorem placeCode_line (c : Code) (s : State) : (placeCode c s).line = s.line := rfl
@[simp] theorem placeCode_led (c : Code) (s : State) : (placeCode c s).led = s.led := rfl
@[simp] theorem placeCode_seq (c : Code) (s : State) : (placeCode c s).seq = s.seq := rfl
@[simp] theorem placeCode_out (c : Code) (s : State) : (placeCode c s).out = s.out := rfl
@[simp] theorem placeCode_script (c : Code) (s : State) : (placeCode c s).env.script = c :: s.env.script := rfl

/-! ## The handlers' effects (R113, R140, R143) -/

@[simp] theorem recordCapture_cfg (s : State) : (recordCapture s).cfg = s.cfg := rfl
@[simp] theorem recordCapture_pm (s : State) : (recordCapture s).pm = { s.pm with rawTicks := s.icr, exitedLevelHigh := exitedLevel s } := rfl
@[simp] theorem recordCapture_count (s : State) : (recordCapture s).count = 0#16 := rfl
@[simp] theorem recordCapture_icr (s : State) : (recordCapture s).icr = s.icr := rfl
@[simp] theorem recordCapture_edge (s : State) : (recordCapture s).edge = flipEdge s.edge := rfl
@[simp] theorem recordCapture_capPending (s : State) : (recordCapture s).capPending = false := rfl
@[simp] theorem recordCapture_ovfPending (s : State) : (recordCapture s).ovfPending = s.ovfPending := rfl
@[simp] theorem recordCapture_cmpPending (s : State) : (recordCapture s).cmpPending = s.cmpPending := rfl
@[simp] theorem recordCapture_line (s : State) : (recordCapture s).line = s.line := rfl
@[simp] theorem recordCapture_led (s : State) : (recordCapture s).led = s.led := rfl
@[simp] theorem recordCapture_seq (s : State) : (recordCapture s).seq = s.seq := rfl
@[simp] theorem recordCapture_out (s : State) : (recordCapture s).out = s.out := rfl
@[simp] theorem recordCapture_env (s : State) : (recordCapture s).env = s.env := rfl

@[simp] theorem recordOverflow_cfg (s : State) : (recordOverflow s).cfg = s.cfg := rfl
@[simp] theorem recordOverflow_pm (s : State) : (recordOverflow s).pm = { s.pm with overflowMarker := markerFor s.cfg s.line } := rfl
@[simp] theorem recordOverflow_count (s : State) : (recordOverflow s).count = s.count := rfl
@[simp] theorem recordOverflow_icr (s : State) : (recordOverflow s).icr = s.icr := rfl
@[simp] theorem recordOverflow_edge (s : State) : (recordOverflow s).edge = s.edge := rfl
@[simp] theorem recordOverflow_capPending (s : State) : (recordOverflow s).capPending = s.capPending := rfl
@[simp] theorem recordOverflow_ovfPending (s : State) : (recordOverflow s).ovfPending = false := rfl
@[simp] theorem recordOverflow_cmpPending (s : State) : (recordOverflow s).cmpPending = s.cmpPending := rfl
@[simp] theorem recordOverflow_line (s : State) : (recordOverflow s).line = s.line := rfl
@[simp] theorem recordOverflow_led (s : State) : (recordOverflow s).led = s.led := rfl
@[simp] theorem recordOverflow_seq (s : State) : (recordOverflow s).seq = s.seq := rfl
@[simp] theorem recordOverflow_out (s : State) : (recordOverflow s).out = s.out := rfl
@[simp] theorem recordOverflow_env (s : State) : (recordOverflow s).env = s.env := rfl

@[simp] theorem indicatorOff_cfg (s : State) : (indicatorOff s).cfg = s.cfg := rfl
@[simp] theorem indicatorOff_pm (s : State) : (indicatorOff s).pm = s.pm := rfl
@[simp] theorem indicatorOff_count (s : State) : (indicatorOff s).count = s.count := rfl
@[simp] theorem indicatorOff_icr (s : State) : (indicatorOff s).icr = s.icr := rfl
@[simp] theorem indicatorOff_edge (s : State) : (indicatorOff s).edge = s.edge := rfl
@[simp] theorem indicatorOff_capPending (s : State) : (indicatorOff s).capPending = s.capPending := rfl
@[simp] theorem indicatorOff_ovfPending (s : State) : (indicatorOff s).ovfPending = s.ovfPending := rfl
@[simp] theorem indicatorOff_cmpPending (s : State) : (indicatorOff s).cmpPending = false := rfl
@[simp] theorem indicatorOff_line (s : State) : (indicatorOff s).line = s.line := rfl
@[simp] theorem indicatorOff_led (s : State) : (indicatorOff s).led = false := rfl
@[simp] theorem indicatorOff_seq (s : State) : (indicatorOff s).seq = s.seq := rfl
@[simp] theorem indicatorOff_out (s : State) : (indicatorOff s).out = s.out := rfl
@[simp] theorem indicatorOff_env (s : State) : (indicatorOff s).env = s.env := rfl

/-! ## What RESET writes (R260) -/

@[simp] theorem resetBlock_cfg (v : Bool) (d : ResetDraw) (s : State) : (resetBlock v d s).cfg = s.cfg := rfl
@[simp] theorem resetBlock_pm (v : Bool) (d : ResetDraw) (s : State) : (resetBlock v d s).pm = PendingMeasurement.zero := rfl
@[simp] theorem resetBlock_count (v : Bool) (d : ResetDraw) (s : State) : (resetBlock v d s).count = d.count := rfl
@[simp] theorem resetBlock_icr (v : Bool) (d : ResetDraw) (s : State) : (resetBlock v d s).icr = d.icr := rfl
@[simp] theorem resetBlock_edge (v : Bool) (d : ResetDraw) (s : State) : (resetBlock v d s).edge = resetEdge v := rfl
@[simp] theorem resetBlock_capPending (v : Bool) (d : ResetDraw) (s : State) : (resetBlock v d s).capPending = s.cfg.bootPending.cap := rfl
@[simp] theorem resetBlock_ovfPending (v : Bool) (d : ResetDraw) (s : State) : (resetBlock v d s).ovfPending = s.cfg.bootPending.ovf := rfl
@[simp] theorem resetBlock_cmpPending (v : Bool) (d : ResetDraw) (s : State) : (resetBlock v d s).cmpPending = s.cfg.bootPending.cmp := rfl
@[simp] theorem resetBlock_line (v : Bool) (d : ResetDraw) (s : State) : (resetBlock v d s).line = v := rfl
@[simp] theorem resetBlock_led (v : Bool) (d : ResetDraw) (s : State) : (resetBlock v d s).led = d.led := rfl
@[simp] theorem resetBlock_seq (v : Bool) (d : ResetDraw) (s : State) : (resetBlock v d s).seq = .check := rfl
@[simp] theorem resetBlock_out (v : Bool) (d : ResetDraw) (s : State) : (resetBlock v d s).out = [] := rfl
@[simp] theorem resetBlock_env (v : Bool) (d : ResetDraw) (s : State) : (resetBlock v d s).env = s.env := rfl

end Sys2Proof.Machine
end

