-- ==== Sys2Proof/Laws/Ops.lean ====
section
/-! SUPPORT. One lemma for each shared operation and each meaning: everything it can do when it answers a next state. Later
proofs cite these and unfold nothing. -/

namespace Sys2Proof.Machine

/-! ## Outcomes -/

@[simp] theorem hold_eq (s : State) : hold s = .next s := rfl

/-! ## The environment's answers -/

theorem transportTakes_of_ready {s : State} {b : Bool} {rest : List Bool} (h : s.env.ready = b :: rest) :
    transportTakes s = b := by
  simp [transportTakes, h]

theorem spendReady_env_of_ready {s : State} {b : Bool} {rest : List Bool} (h : s.env.ready = b :: rest) :
    (spendReady s).env = { s.env with ready := rest } := by
  simp [spendReady, h]

/-- All that using up a transport answer changes. -/
theorem spendReady_env (s : State) : (spendReady s).env = { s.env with
    ready := s.env.ready.tail, readyNo := if s.env.ready = [] then s.env.readyNo + 1 else s.env.readyNo } := by
  cases h : s.env.ready <;> simp [spendReady, h]

/-- All that using up a RESET argument changes. -/
theorem spendDraw_env (s : State) : (spendDraw s).env = { s.env with
    draws := s.env.draws.tail, drawNo := if s.env.draws = [] then s.env.drawNo + 1 else s.env.drawNo } := by
  cases h : s.env.draws <;> simp [spendDraw, h]

/-- Using up a transport answer changes nothing but the model's own fields. -/
theorem spendReady_eq (s : State) : spendReady s = { s with env := (spendReady s).env } := rfl

/-- Using up a RESET argument changes nothing but the model's own fields. -/
theorem spendDraw_eq (s : State) : spendDraw s = { s with env := (spendDraw s).env } := rfl

/-- The draws of a RESET that the environment has fixed in advance. -/
theorem resetDraw_of_draws {s : State} {d : ResetDraw} {rest : List ResetDraw} (h : s.env.draws = d :: rest) :
    resetDraw s = d := by
  simp [resetDraw, h]

/-! ## Taking an interrupt -/

theorem takeInterrupt_pending {b : Bool} (hb : b = true) (f : State → State) (s : State) :
    takeInterrupt b f s = .next (wake (f s)) := by
  simp [takeInterrupt, hb]

theorem takeInterrupt_clear {b : Bool} (hb : b = false) (f : State → State) (s : State) :
    takeInterrupt b f s = .next s := by
  simp [takeInterrupt, hb]

theorem takeInterrupt_cases {b : Bool} {f : State → State} {s t : State} (h : takeInterrupt b f s = .next t) :
    (b = true ∧ t = wake (f s)) ∨ (b = false ∧ t = s) := by
  cases b
  · exact .inr ⟨rfl, by simpa [takeInterrupt] using h.symm⟩
  · exact .inl ⟨rfl, by simpa [takeInterrupt] using h.symm⟩

/-! ## Offering a byte -/

theorem offerByte_taken {s : State} (h : transportTakes s = true) (b : Byte) (after : Seq) :
    offerByte b after s = .next { spendReady s with out := s.out ++ [b], seq := after } := by
  simp [offerByte, h]

theorem offerByte_held {s : State} (h : transportTakes s = false) (b : Byte) (after : Seq) :
    offerByte b after s = .next (spendReady s) := by
  simp [offerByte, h]

theorem offerByte_cases {b : Byte} {after : Seq} {s t : State} (h : offerByte b after s = .next t) :
    (transportTakes s = true ∧ t = { spendReady s with out := s.out ++ [b], seq := after })
      ∨ (transportTakes s = false ∧ t = spendReady s) := by
  cases hr : transportTakes s
  · exact .inr ⟨rfl, by simpa [offerByte, hr] using h.symm⟩
  · exact .inl ⟨rfl, by simpa [offerByte, hr] using h.symm⟩

/-- What one step of the emission of a word can do (log 11). -/
theorem transferWord_cases {w : Word} {s t : State} (h : transferWord w s = .next t) :
    (s.seq = .emitLo w ∧ transportTakes s = true ∧
        t = { spendReady s with out := s.out ++ [lowByte w], seq := .emitHi w })
      ∨ (s.seq = .emitHi w ∧ transportTakes s = true ∧
        t = { spendReady s with out := s.out ++ [highByte w], seq := .check })
      ∨ t = spendReady s ∨ t = s := by
  unfold transferWord at h
  split at h
  all_goals first
    | (split at h
       · subst_vars
         rcases offerByte_cases h with ⟨hr, rfl⟩ | ⟨-, rfl⟩ <;> simp_all
       · exact .inr (.inr (.inr (by simpa using h.symm))))
    | exact .inr (.inr (.inr (by simpa using h.symm)))

/-! ## The handlers and the emissions, forward -/

theorem exec_captureIsr_of_pending {s : State} (h : s.capPending = true) :
    exec .captureIsr s = .next (wake (recordCapture s)) := takeInterrupt_pending h _ _

theorem exec_overflowIsr_of_pending {s : State} (h : s.ovfPending = true) :
    exec .overflowIsr s = .next (wake (recordOverflow s)) := takeInterrupt_pending h _ _

theorem exec_compareIsr_of_pending {s : State} (h : s.cmpPending = true) :
    exec .compareIsr s = .next (wake (indicatorOff s)) := takeInterrupt_pending h _ _

theorem exec_emitLo_of_due {s : State} {w : Word} (h : s.seq = .emitLo w) : exec .emitLo s = sendLow w s := by
  simp only [exec, execEmitLo, h]

theorem exec_emitHi_of_due {s : State} {w : Word} (h : s.seq = .emitHi w) : exec .emitHi s = sendHigh w s := by
  simp only [exec, execEmitHi, h]

/-! ## Inversion of the meanings -/

theorem exec_captureIsr_cases {s t : State} (h : exec .captureIsr s = .next t) :
    (s.capPending = true ∧ t = wake (recordCapture s)) ∨ (s.capPending = false ∧ t = s) := takeInterrupt_cases h

theorem exec_overflowIsr_cases {s t : State} (h : exec .overflowIsr s = .next t) :
    (s.ovfPending = true ∧ t = wake (recordOverflow s)) ∨ (s.ovfPending = false ∧ t = s) := takeInterrupt_cases h

theorem exec_compareIsr_cases {s t : State} (h : exec .compareIsr s = .next t) :
    (s.cmpPending = true ∧ t = wake (indicatorOff s)) ∨ (s.cmpPending = false ∧ t = s) := takeInterrupt_cases h

theorem exec_emitLo_cases {s t : State} (h : exec .emitLo s = .next t) :
    (∃ w, s.seq = .emitLo w ∧ transportTakes s = true ∧
        t = { spendReady s with out := s.out ++ [lowByte w], seq := .emitHi w })
      ∨ t = spendReady s ∨ t = s := by
  simp only [exec, execEmitLo] at h
  split at h
  all_goals first
    | (rcases offerByte_cases h with ⟨hr, rfl⟩ | ⟨-, rfl⟩ <;> simp_all)
    | exact .inr (.inr (by simpa using h.symm))

theorem exec_emitHi_cases {s t : State} (h : exec .emitHi s = .next t) :
    (∃ w, s.seq = .emitHi w ∧ transportTakes s = true ∧
        t = { spendReady s with out := s.out ++ [highByte w], seq := .check })
      ∨ t = spendReady s ∨ t = s := by
  simp only [exec, execEmitHi] at h
  split at h
  all_goals first
    | (rcases offerByte_cases h with ⟨hr, rfl⟩ | ⟨-, rfl⟩ <;> simp_all)
    | exact .inr (.inr (by simpa using h.symm))

theorem exec_loopCheck_cases {s t : State} (h : exec .loopCheck s = .next t) :
    (s.seq = .check ∧ t = { s with seq := if s.pm.rawTicks ≠ 0#16 then .snap else .preSleep }) ∨ t = s := by
  simp only [exec, execLoopCheck] at h
  split at h
  · exact .inl ⟨‹_›, by simpa [measurementPending] using h.symm⟩
  · exact .inr (by simpa using h.symm)

theorem exec_enterSleep_cases {s t : State} (h : exec .enterSleep s = .next t) :
    (s.seq = .preSleep ∧ t = { s with seq := .asleep }) ∨ t = s := by
  simp only [exec, execEnterSleep] at h
  split at h
  · exact .inl ⟨‹_›, by simpa using h.symm⟩
  · exact .inr (by simpa using h.symm)

theorem exec_snapshot_cases {s t : State} (h : exec .snapshot s = .next t) :
    (s.seq = .snap ∧ t = { s with pm := PendingMeasurement.zero, seq := .lit s.pm }) ∨ (s.seq ≠ .snap ∧ t = s) := by
  simp only [exec, execSnapshot] at h
  split at h
  · exact .inl ⟨‹_›, by simpa using h.symm⟩
  · exact .inr ⟨‹_›, by simpa using h.symm⟩

theorem exec_indicatorOn_cases {s t : State} (h : exec .indicatorOn s = .next t) :
    (∃ p, s.seq = .lit p ∧ t = { s with led := true, seq := .emitLo (encodeWord s.cfg p) }) ∨ t = s := by
  simp only [exec, execIndicatorOn] at h
  split at h
  all_goals first
    | exact .inl ⟨_, ‹_›, by simpa using h.symm⟩
    | exact .inr (by simpa using h.symm)

theorem exec_lineSet_cases {v : Bool} {s t : State} (h : exec (.lineSet v) s = .next t) :
    (v = s.line ∧ t = s)
      ∨ (v ≠ s.line ∧ edgeMatches s.line v s.edge = true ∧ t = { s with line := v, icr := s.count, capPending := true })
      ∨ (v ≠ s.line ∧ edgeMatches s.line v s.edge = false ∧ t = { s with line := v }) := by
  simp only [exec, execLineSet] at h
  split at h
  · exact .inl ⟨‹_›, by simpa using h.symm⟩
  · split at h
    · exact .inr (.inl ⟨‹_›, ‹_›, by simpa using h.symm⟩)
    · exact .inr (.inr ⟨‹_›, Bool.eq_false_iff.mpr ‹_›, by simpa using h.symm⟩)

theorem exec_tick_cases {s t : State} (h : exec .tick s = .next t) :
    t = { s with
      count := s.count + 1#16
      ovfPending := rolloverFlag s.count s.ovfPending
      cmpPending := compareFlag s.cfg (s.count + 1#16) s.cmpPending } := by
  simpa [exec, execTick] using h.symm

theorem exec_reset_cases {v : Bool} {s t : State} (h : exec (.reset v) s = .next t) :
    t = resetBlock v (resetDraw s) (spendDraw s) := by
  simpa [exec, execReset] using h.symm

theorem exec_reserved_not_next {op : Byte} {s t : State} : exec (.reserved op) s ≠ .next t := by
  simp [exec, execReserved]

/-! ## Runs -/

@[simp] theorem execAll_nil (s : State) : execAll [] s = .next s := rfl

theorem execAll_cons_next {i : Instr} {s t : State} (h : exec i s = .next t) (is : List Instr) :
    execAll (i :: is) s = execAll is t := by
  simp [execAll, h]

theorem execAll_cons_cases {i : Instr} {is : List Instr} {s u : State} (h : execAll (i :: is) s = .next u) :
    ∃ t, exec i s = .next t ∧ execAll is t = .next u := by
  cases hi : exec i s with
  | next t => exact ⟨t, rfl, by simpa [execAll, hi] using h⟩
  | fault r => cases r
  | refused r => simp [execAll, hi] at h

theorem execAll_append_next {is js : List Instr} {s t : State} (h : execAll is s = .next t) :
    execAll (is ++ js) s = execAll js t := by
  induction is generalizing s with
  | nil => simp only [execAll_nil, Host.Outcome.next.injEq] at h; simp [h]
  | cons i is ih =>
    obtain ⟨u, hu, hr⟩ := execAll_cons_cases h
    rw [List.cons_append, execAll_cons_next hu]
    exact ih hr

theorem execAll_append_cases {is js : List Instr} {s u : State} (h : execAll (is ++ js) s = .next u) :
    ∃ t, execAll is s = .next t ∧ execAll js t = .next u := by
  induction is generalizing s with
  | nil => exact ⟨s, rfl, h⟩
  | cons i is ih =>
    obtain ⟨t, ht, hr⟩ := execAll_cons_cases h
    obtain ⟨r, hr1, hr2⟩ := ih hr
    exact ⟨r, by rw [execAll_cons_next ht]; exact hr1, hr2⟩

/-- The induction over a run, once: what every operation of the list keeps, the run keeps. -/
theorem execAll_keeps {P : State → Prop} {ops : List Instr}
    (hstep : ∀ i ∈ ops, ∀ s t, P s → exec i s = .next t → P t) {s t : State} (hs : P s)
    (h : execAll ops s = .next t) : P t := by
  induction ops generalizing s with
  | nil => simp only [execAll_nil, Host.Outcome.next.injEq] at h; exact h ▸ hs
  | cons i is ih =>
    obtain ⟨u, hu, hr⟩ := execAll_cons_cases h
    exact ih (fun j hj => hstep j (List.mem_cons_of_mem _ hj)) (hstep i List.mem_cons_self s u hs hu) hr

end Sys2Proof.Machine
end

