-- ==== Sys2Proof/Laws/Functions.lean ====
section
/-! SUPPORT. The small lemmas of the operand functions: configuration validity, bytes and words, the converter, the wire
encodings, and the fetch. -/

namespace Sys2Proof.Machine

theorem configValid_iff (c : Config) :
    configValid c = true ↔ 1 ≤ c.prescale ∧ 1 ≤ scaleDen c ∧
      c.markerHigh ≠ 0#8 ∧ c.markerLow ≠ 0#8 ∧ c.markerHigh ≠ c.markerLow := by
  unfold configValid
  simp only [Bool.and_eq_true, decide_eq_true_eq]
  tauto

/-- The reference configuration's denominator (R5, R160). -/
@[simp] theorem scaleDen_reference (c : Word) : scaleDen (Config.reference c) = 15625 := by
  norm_num [scaleDen, Config.reference]

/-- The reference configuration is admitted (R5, R6). -/
theorem configValid_reference (c : Word) : configValid (Config.reference c) = true := by
  rw [configValid_iff, scaleDen_reference]
  exact ⟨by norm_num [Config.reference], by omega, by simp [Config.reference], by simp [Config.reference],
    by simp [Config.reference]⟩

theorem markerFor_ne_zero {c : Config} (h : configValid c = true) (line : Bool) : markerFor c line ≠ 0#8 := by
  obtain ⟨-, -, hh, hl, -⟩ := (configValid_iff c).mp h
  cases line
  · exact hl
  · exact hh

/-! ## Bytes and words -/

@[simp] theorem toNat_lowByte (w : Word) : (lowByte w).toNat = w.toNat % 256 := by
  simp [lowByte]

@[simp] theorem toNat_highByte (w : Word) : (highByte w).toNat = w.toNat / 256 := by
  have : w.toNat / 256 < 256 := by omega
  simp [highByte, Nat.shiftRight_eq_div_pow, Nat.mod_eq_of_lt this]

theorem toNat_wordOfBytes (b0 b1 : Byte) : (wordOfBytes b0 b1).toNat = b1.toNat * 256 + b0.toNat := by
  have h0 : b0.toNat < 2 ^ 8 := b0.isLt
  have h1 : b1.toNat < 2 ^ 8 := b1.isLt
  have hs : (b1.setWidth 16 <<< 8 : Word).toNat = b1.toNat <<< 8 := by
    simp only [BitVec.toNat_shiftLeft, BitVec.toNat_setWidth, Nat.shiftLeft_eq]
    omega
  have h0' : (b0.setWidth 16 : Word).toNat = b0.toNat := by
    simp only [BitVec.toNat_setWidth]
    omega
  rw [wordOfBytes, BitVec.toNat_or, hs, h0', ← Nat.shiftLeft_add_eq_or_of_lt h0, Nat.shiftLeft_eq]

/-- A word is the pair of its two bytes (R62). -/
@[simp] theorem wordOfBytes_bytes (w : Word) : wordOfBytes (lowByte w) (highByte w) = w := by
  apply BitVec.eq_of_toNat_eq
  rw [toNat_wordOfBytes, toNat_lowByte, toNat_highByte]
  omega

theorem toNat_measurementWord (l : Bool) (d : Duration) :
    (measurementWord l d).toNat = (if l then 32768 else 0) + d.toNat := by
  have hd : d.toNat < 2 ^ 15 := d.isLt
  have hd' : (d.setWidth 16 : Word).toNat = d.toNat := by
    simp only [BitVec.toNat_setWidth]
    omega
  have hs : (((if l then 1#16 else 0#16) <<< 15 : Word)).toNat = (if l then 1 else 0) <<< 15 := by
    cases l <;> rfl
  rw [measurementWord, BitVec.toNat_or, hs, hd', ← Nat.shiftLeft_add_eq_or_of_lt hd, Nat.shiftLeft_eq]
  cases l <;> simp

theorem toNat_encodeOverflow (m : Byte) : (encodeOverflow m).toNat = m.toNat * 256 + 255 :=
  toNat_wordOfBytes 0xFF#8 m

/-! ## The converter -/

theorem scaled_lt (den : Nat) (t : Word) : scaled den t < 2 ^ 29 := by
  have : t.toNat < 2 ^ 16 := t.isLt
  exact lt_of_le_of_lt (Nat.div_le_self _ _) (by omega)

theorem scaled_mono (den : Nat) {t u : Word} (h : t.toNat ≤ u.toNat) : scaled den t ≤ scaled den u :=
  Nat.div_le_div_right (Nat.mul_le_mul_right _ h)

/-- Convert as a number: the scaled value clamped into 1 to 32767. -/
theorem toNat_convert (den : Nat) (t : Word) : (convert den t).toNat = min 32767 (max 1 (scaled den t)) := by
  unfold convert
  split
  · simp only [BitVec.toNat_ofNat]
    omega
  · split
    · simp only [BitVec.toNat_ofNat]
      omega
    · simp only [BitVec.toNat_ofNat]
      omega

/-! ## The fetch -/

theorem nextCode_of_script {s : State} {c : Code} {rest : List Code} (h : s.env.script = c :: rest) : nextCode s = c := by
  simp [nextCode, h]

/-! `advanceChoice` leaves the transport's and the RESET's answers alone. -/

@[simp] theorem advanceChoice_env_ready (i : Instr) (s : State) : (advanceChoice i s).env.ready = s.env.ready := by
  unfold advanceChoice
  cases s.env.script <;> cases finishesItem i s <;> rfl

@[simp] theorem advanceChoice_env_readyNo (i : Instr) (s : State) : (advanceChoice i s).env.readyNo = s.env.readyNo := by
  unfold advanceChoice
  cases s.env.script <;> cases finishesItem i s <;> rfl

@[simp] theorem advanceChoice_env_draws (i : Instr) (s : State) : (advanceChoice i s).env.draws = s.env.draws := by
  unfold advanceChoice
  cases s.env.script <;> cases finishesItem i s <;> rfl

@[simp] theorem advanceChoice_env_drawNo (i : Instr) (s : State) : (advanceChoice i s).env.drawNo = s.env.drawNo := by
  unfold advanceChoice
  cases s.env.script <;> cases finishesItem i s <;> rfl

@[simp] theorem transportTakes_advanceChoice (i : Instr) (s : State) :
    transportTakes (advanceChoice i s) = transportTakes s := by
  simp only [transportTakes, advanceChoice_env_ready, advanceChoice_env_readyNo]

@[simp] theorem resetDraw_advanceChoice (i : Instr) (s : State) : resetDraw (advanceChoice i s) = resetDraw s := by
  simp only [resetDraw, advanceChoice_env_draws, advanceChoice_env_drawNo]

theorem enabled_advanceChoice (i j : Instr) (s : State) : enabled i (advanceChoice j s) = enabled i s := by
  cases i <;> simp only [enabled, wordDue, transportTakes_advanceChoice] <;> rfl

theorem step_of_valid {s : State} {i : Instr} (hv : configValid s.cfg = true) (hd : decode (nextCode s) = .instr i) :
    step s = exec i (advanceChoice i s) := by
  rw [step, if_pos hv, hd]

/-- A reserved wire word holds. -/
theorem step_of_reservedWire {s : State} {w : Word} (hv : configValid s.cfg = true)
    (hd : decode (nextCode s) = .reservedWire w) : step s = .next s := by
  rw [step, if_pos hv, hd]; rfl

/-- What a step that answers a next state has done: executed one decoded instruction, or held at a reserved wire word. -/
theorem step_cases {s t : State} (h : step s = .next t) :
    configValid s.cfg = true ∧
      ((∃ i, decode (nextCode s) = .instr i ∧ exec i (advanceChoice i s) = .next t) ∨
        ((∃ w, decode (nextCode s) = .reservedWire w) ∧ t = s)) := by
  unfold step at h
  split at h
  · refine ⟨‹_›, ?_⟩
    split at h
    · exact .inl ⟨_, ‹_›, h⟩
    · cases h; exact .inr ⟨⟨_, ‹_›⟩, rfl⟩
  · cases h

end Sys2Proof.Machine
end

