-- ==== Sys2Proof/Laws/PerInstr.lean ====
section
/-! SUPPORT. A statement for every row of the opcode table, one lemma a constructor: the encoding of a well-formed instruction
fits the row's width, mask and match in `spec/opcode_table.json`. -/

namespace Sys2Proof.Laws.TableRow

/-- A row's width, mask and match, as the table gives them; a row with no mask fixes no bit. -/
structure Row where
  width : Nat
  mask : Nat
  fixed : Nat

/-- The table's row of an instruction. -/
def row : Instr → Row
  | .tick => { width := 8, mask := 0xFF, fixed := 0x00 }
  | .lineSet _ => { width := 8, mask := 0xEF, fixed := 0x01 }
  | .captureIsr => { width := 8, mask := 0xFF, fixed := 0x02 }
  | .overflowIsr => { width := 8, mask := 0xFF, fixed := 0x03 }
  | .compareIsr => { width := 8, mask := 0xFF, fixed := 0x04 }
  | .loopCheck => { width := 8, mask := 0xFF, fixed := 0x05 }
  | .enterSleep => { width := 8, mask := 0xFF, fixed := 0x06 }
  | .snapshot => { width := 8, mask := 0xFF, fixed := 0x07 }
  | .indicatorOn => { width := 8, mask := 0xFF, fixed := 0x08 }
  | .emitLo => { width := 8, mask := 0xFF, fixed := 0x09 }
  | .emitHi => { width := 8, mask := 0xFF, fixed := 0x0A }
  | .reset _ => { width := 8, mask := 0xEF, fixed := 0x0B }
  | .reserved _ => { width := 8, mask := 0x00, fixed := 0x00 }
  | .wireMeasurement _ _ => { width := 16, mask := 0x0000, fixed := 0x0000 }
  | .wireOverflowHigh => { width := 16, mask := 0xFFFF, fixed := 0xFFFF }
  | .wireOverflowLow => { width := 16, mask := 0xFFFF, fixed := 0x7FFF }

/-- The width and the bits of an item. -/
def bits : Code → Nat × Nat
  | .op8 op => (8, op.toNat)
  | .wire16 w => (16, w.toNat)

/-- The encoding has the row's width and its fixed bits. -/
def Statement (i : Instr) : Prop :=
  i.wf = true → (bits (encode i)).1 = (row i).width ∧ (bits (encode i)).2 &&& (row i).mask = (row i).fixed

theorem tick : Statement .tick := fun _ => by decide
theorem lineSet (v : Bool) : Statement (.lineSet v) := fun _ => by cases v <;> decide
theorem captureIsr : Statement .captureIsr := fun _ => by decide
theorem overflowIsr : Statement .overflowIsr := fun _ => by decide
theorem compareIsr : Statement .compareIsr := fun _ => by decide
theorem loopCheck : Statement .loopCheck := fun _ => by decide
theorem enterSleep : Statement .enterSleep := fun _ => by decide
theorem snapshot : Statement .snapshot := fun _ => by decide
theorem indicatorOn : Statement .indicatorOn := fun _ => by decide
theorem emitLo : Statement .emitLo := fun _ => by decide
theorem emitHi : Statement .emitHi := fun _ => by decide
theorem reset (v : Bool) : Statement (.reset v) := fun _ => by cases v <;> decide
theorem reserved (op : Byte) : Statement (.reserved op) := fun _ => ⟨rfl, Nat.and_zero _⟩
theorem wireMeasurement (l : Bool) (d : Duration) : Statement (.wireMeasurement l d) := fun _ => ⟨rfl, Nat.and_zero _⟩
theorem wireOverflowHigh : Statement .wireOverflowHigh := fun _ => by decide
theorem wireOverflowLow : Statement .wireOverflowLow := fun _ => by decide

end Sys2Proof.Laws.TableRow
end

