-- ==== Sys2Proof/Tests/Slice0.lean ====
section
/-! SUPPORT. The model's own tests, each from a vector of `spec/95_test_vectors.md` or a worked example of a rule, and for every
statement with hypotheses a concrete witness that meets them, clause by clause. -/

namespace Sys2Proof.Tests

open Sys2Proof Sys2Proof.Machine

/-! ## Small states -/

/-- The vectors' configuration (section 0): the reference one with COMPARE_VALUE = 0x4000. -/
def cfg : Config := Config.reference 0x4000#16

/-- The vectors' saturation configuration (R5): PRESCALE = 1024, SCALE_DEN = 3906. -/
def cfg3906 : Config := { cfg with prescale := 1024 }

/-- The state after `reset 1` under the vectors' configuration (V-RS1). -/
def base : State := { State.reset with cfg := cfg }

/-- `base` at a sequencer state. -/
def at_ (q : Seq) : State := { base with seq := q }

/-- `base` with all three flags set. -/
def flagged : State := { base with capPending := true, ovfPending := true, cmpPending := true }

/-- A slot or a snapshot. -/
def slot (t : Word) (hi : Bool) (m : Byte) : PendingMeasurement := { rawTicks := t, exitedLevelHigh := hi, overflowMarker := m }

/-- `s` with a script. -/
def scripted (s : State) (l : List Code) : State := { s with env := { s.env with script := l } }

/-- `s` with the transport's next answers. -/
def answers (s : State) (l : List Bool) : State := { s with env := { s.env with ready := l } }

/-- The next state of a result. -/
def nextOf : Result → Option State
  | .next t => some t
  | .fault _ => none
  | .refused _ => none

/-- The refusal of a result. -/
def refusalOf : Result → Option Refusal
  | .next _ => none
  | .fault _ => none
  | .refused r => some r

/-! ## Well-formedness: each check refuses its ill-formed term -/

theorem test_wf_refuses_operation_as_reserved : (Instr.reserved 0x00#8).wf = false := by decide
theorem test_wf_refuses_reset_as_reserved : (Instr.reserved 0x1B#8).wf = false := by decide
theorem test_wf_refuses_zero_duration : (Instr.wireMeasurement true 0#15).wf = false := by decide
theorem test_wf_refuses_overflow_word_as_measurement : (Instr.wireMeasurement false 32767#15).wf = false := by decide
theorem test_wf_accepts_reserved_code : (Instr.reserved 0x0C#8).wf = true := by decide
theorem test_wf_accepts_reserved_operand : (Instr.reserved 0x10#8).wf = true := by decide
theorem test_wf_accepts_reserved_high_bits : (Instr.reserved 0x20#8).wf = true := by decide

/-! ## Decoding: words written out from R86, R87, R81, R82 (V-DC1 to V-DC9) -/

theorem test_decode_tick : decode (.op8 0b00000000#8) = .instr .tick := by decide
theorem test_decode_line_low : decode (.op8 0b00000001#8) = .instr (.lineSet false) := by decide
theorem test_decode_line_high : decode (.op8 0b00010001#8) = .instr (.lineSet true) := by decide
theorem test_decode_capture : decode (.op8 0b00000010#8) = .instr .captureIsr := by decide
theorem test_decode_overflow : decode (.op8 0b00000011#8) = .instr .overflowIsr := by decide
theorem test_decode_compare : decode (.op8 0b00000100#8) = .instr .compareIsr := by decide
theorem test_decode_check : decode (.op8 0b00000101#8) = .instr .loopCheck := by decide
theorem test_decode_sleep : decode (.op8 0b00000110#8) = .instr .enterSleep := by decide
theorem test_decode_snapshot : decode (.op8 0b00000111#8) = .instr .snapshot := by decide
theorem test_decode_indicator : decode (.op8 0b00001000#8) = .instr .indicatorOn := by decide
theorem test_decode_emit_lo : decode (.op8 0b00001001#8) = .instr .emitLo := by decide
theorem test_decode_emit_hi : decode (.op8 0b00001010#8) = .instr .emitHi := by decide
theorem test_decode_reset_low : decode (.op8 0b00001011#8) = .instr (.reset false) := by decide
theorem test_decode_reset_high : decode (.op8 0b00011011#8) = .instr (.reset true) := by decide
theorem test_decode_reserved : [0x10#8, 0x12#8, 0x1A#8, 0x0C#8, 0x0D#8, 0x0E#8, 0x0F#8, 0x1C#8, 0x20#8, 0x21#8, 0x80#8, 0xFF#8].all
    (fun op => decide (decode (.op8 op) = .instr (.reserved op))) = true := by decide
theorem test_decode_measurement_high : decode (.wire16 0b0001000000000000#16) = .instr (.wireMeasurement false 4096#15) := by decide
theorem test_decode_measurement_low : decode (.wire16 0b1001000000000000#16) = .instr (.wireMeasurement true 4096#15) := by decide
theorem test_decode_overflow_high : decodeBytes [0xFF#8, 0xFF#8] = .item (.instr .wireOverflowHigh) := by decide
theorem test_decode_overflow_low : decodeBytes [0xFF#8, 0x7F#8] = .item (.instr .wireOverflowLow) := by decide
theorem test_decode_low_byte_first : decodeBytes [0x1B#8, 0x43#8] = .item (.instr (.wireMeasurement false 17179#15)) := by decide
theorem test_decode_refuses_zero_word : decode (.wire16 0x8000#16) = .reservedWire 0x8000#16 := by decide
theorem test_decode_refuses_three_bytes : decodeBytes [0#8, 0#8, 0#8] = .badLength 3 := by decide
theorem test_table_word_tick : decodeTableWord 8 0 = some .tick := by decide
theorem test_table_word_wire : decodeTableWord 16 0x7FFF = some .wireOverflowLow := by decide

/-! ## The operations -/

/-- V-T2, V-T3. -/
theorem test_tick_rolls_over : (nextOf (exec .tick { base with count := 0xFFFF#16 })).map
    (fun t => (t.count, t.ovfPending, t.cmpPending)) = some (0#16, true, false) := by decide
theorem test_tick_compare_match : (nextOf (exec .tick { base with count := 0x3FFF#16 })).map
    (fun t => (t.count, t.ovfPending, t.cmpPending)) = some (0x4000#16, false, true) := by decide
/-- V-LS1, V-LS3. -/
theorem test_line_falling_latches : (nextOf (exec (.lineSet false) { base with count := 15625#16 })).map
    (fun t => (t.line, t.icr, t.capPending)) = some (false, 15625#16, true) := by decide
theorem test_line_other_polarity : (nextOf (exec (.lineSet false) { base with edge := .rising, count := 9#16, icr := 4#16 })).map
    (fun t => (t.line, t.icr, t.capPending)) = some (false, 4#16, false) := by decide
/-- V-CP1, V-CP6. -/
theorem test_capture_records_and_wakes :
    (nextOf (exec .captureIsr { at_ .asleep with icr := 15625#16, line := false, capPending := true, count := 7#16 })).map
    (fun t => (t.pm, t.count, t.edge, t.capPending, t.seq)) = some (slot 15625#16 true 0#8, 0#16, .rising, false, .check) := by decide
theorem test_capture_edge_select :
    (nextOf (exec .captureIsr { base with cfg := { cfg with levelSource := .edgeSelect }, icr := 10#16, capPending := true })).map
    (fun t => (t.pm.exitedLevelHigh, t.edge)) = some (true, .rising) := by decide
/-- V-OV1, V-OV5. -/
theorem test_overflow_high_wakes : (nextOf (exec .overflowIsr { at_ .asleep with ovfPending := true })).map
    (fun t => (t.pm.overflowMarker, t.ovfPending, t.seq)) = some (0xFF#8, false, .check) := by decide
theorem test_overflow_low_keeps_ticks :
    (nextOf (exec .overflowIsr { base with pm := slot 1234#16 true 0#8, line := false, ovfPending := true })).map
    (fun t => t.pm) = some (slot 1234#16 true 0x7F#8) := by decide
/-- V-CM1, V-CM2. -/
theorem test_compare_turns_off : (nextOf (exec .compareIsr { at_ (.emitLo 0x1000#16) with led := true, cmpPending := true })).map
    (fun t => (t.led, t.cmpPending, t.seq)) = some (false, false, .emitLo 0x1000#16) := by decide
theorem test_compare_wakes : (nextOf (exec .compareIsr { at_ .asleep with cmpPending := true })).map
    (fun t => t.seq) = some .check := by decide
/-- V-LP1, V-LP3. -/
theorem test_check_pending : (nextOf (exec .loopCheck { base with pm := slot 15625#16 true 0#8 })).map (fun t => t.seq) = some .snap := by decide
theorem test_check_marker_alone : (nextOf (exec .loopCheck { base with pm := slot 0#16 false 0xFF#8 })).map (fun t => t.seq) =
    some .preSleep := by decide
/-- V-LP5, V-LP6. -/
theorem test_sleep_not_gated : (nextOf (exec .enterSleep { at_ .preSleep with pm := slot 500#16 true 0#8 })).map (fun t => t.seq) =
    some .asleep := by decide
theorem test_asleep_holds : nextOf (exec .enterSleep (at_ .asleep)) = some (at_ .asleep) := by decide
/-- V-E2. -/
theorem test_snapshot_clears : (nextOf (exec .snapshot { at_ .snap with pm := slot 100#16 true 0xFF#8 })).map
    (fun t => (t.pm, t.seq)) = some (slot 0#16 false 0#8, .lit (slot 100#16 true 0xFF#8)) := by decide
/-- V-E3, V-E4. -/
theorem test_indicator_encodes_high : (nextOf (exec .indicatorOn (at_ (.lit (slot 15625#16 true 0#8))))).map
    (fun t => (t.led, t.seq)) = some (true, .emitLo 0x1000#16) := by decide
theorem test_indicator_encodes_low : (nextOf (exec .indicatorOn (at_ (.lit (slot 15625#16 false 0#8))))).map
    (fun t => t.seq) = some (.emitLo 0x9000#16) := by decide
/-- V-E9, V-E11. -/
theorem test_emit_lo : (nextOf (exec .emitLo (answers (at_ (.emitLo 0x9042#16)) [true]))).map
    (fun t => (t.out, t.seq)) = some ([0x42#8], .emitHi 0x9042#16) := by decide
theorem test_emit_lo_held : nextOf (exec .emitLo (answers (at_ (.emitLo 0x9000#16)) [false])) =
    some (at_ (.emitLo 0x9000#16)) := by decide
/-- V-E10. -/
theorem test_emit_hi : (nextOf (exec .emitHi (answers { at_ (.emitHi 0x9042#16) with out := [0x42#8] } [true]))).map
    (fun t => (t.out, t.seq)) = some ([0x42#8, 0x90#8], .check) := by decide
/-- V-RS2: the draws pass through. -/
theorem test_reset_draws : (nextOf (exec (.reset false)
    { at_ (.emitHi 0x0106#16) with out := [6#8], env := { base.env with draws := [{ count := 0x1234#16, icr := 0xBEEF#16, led := true }] } })).map
    (fun t => ((t.count, t.icr, t.line), (t.edge, t.led), (t.seq, t.out))) =
      some ((0x1234#16, 0xBEEF#16, false), (.rising, true), (.check, [])) := by decide
/-- V-DC7. -/
theorem test_reserved_is_refused : refusalOf (exec (.reserved 0x0C#8) base) = some (.reservedOp 0x0C#8) := by decide
/-- A wire word sends its own due byte only (log 11, the bytes from W2 and W11). -/
theorem test_wire_measurement_low_half : (nextOf (exec (.wireMeasurement false 4096#15) (answers (at_ (.emitLo 0x1000#16)) [true]))).map
    (fun t => (t.out, t.seq)) = some ([0x00#8], .emitHi 0x1000#16) := by decide
theorem test_wire_other_word_holds : nextOf (exec .wireOverflowHigh (at_ (.emitHi 0x7FFF#16))) = some (at_ (.emitHi 0x7FFF#16)) := by decide
theorem test_wire_overflow_high : (nextOf (exec .wireOverflowHigh (answers (at_ (.emitHi 0xFFFF#16)) [true]))).map
    (fun t => (t.out, t.seq)) = some ([0xFF#8], .check) := by decide
theorem test_wire_overflow_low : (nextOf (exec .wireOverflowLow (answers (at_ (.emitHi 0x7FFF#16)) [true]))).map
    (fun t => (t.out, t.seq)) = some ([0x7F#8], .check) := by decide

/-! ## The functions: W1 to W12 and section 2.6 -/

theorem test_scale_den : (scaleDen cfg, scaleDen cfg3906) = (15625, 3906) := by decide
theorem test_config_refuses : [{ cfg with prescale := 0 }, { cfg with oscHz := 3, prescale := 1 }, { cfg with markerLow := 0xFF#8 }].all
    (fun c => !configValid c) = true := by decide
theorem test_config_admits : (configValid cfg && configValid cfg3906) = true := by decide
theorem test_convert_reference : [0#16, 3#16, 7#16, 8#16, 255#16, 974#16, 15625#16, 65535#16].map (convert 15625) =
    [1#15, 1#15, 1#15, 2#15, 66#15, 255#15, 4096#15, 17179#15] := by decide
theorem test_convert_saturates : [31247#16, 31248#16, 65535#16].map (convert 3906) = [32766#15, 32767#15, 32767#15] := by decide
theorem test_encode_overflow : encodeWord cfg (slot 65535#16 true 0xFF#8) = 0xFFFF#16 ∧ encodeWord cfg (slot 0#16 false 0x7F#8) = 0x7FFF#16 := by
  decide
theorem test_encode_measurement : encodeWord cfg (slot 65535#16 false 0#8) = 0xC31B#16 ∧ encodeWord cfg (slot 0#16 true 0#8) = 0x0001#16 := by
  decide
theorem test_serialize : serialize 0xC31B#16 = [0x1B#8, 0xC3#8] := by decide
theorem test_host_reads : hostRead 15625 0xFF#8 0x7F#8 = .overflow false ∧ hostRead 15625 0x00#8 0x90#8 = .measurement false 4096#15 ∧
    hostRead 3906 0xFF#8 0x7F#8 = .measurement true 32767#15 := by decide
theorem test_text : (encode (.lineSet true), (Instr.lineSet true).text) = (.op8 0x11#8, some "line 1") := by decide

/-! ## The step: the fetch word, the script, and the refusals -/

theorem test_step_runs_fetch_word : (nextOf (step (State.reset.withFetchWord 8 0x05))).map (fun t => (t.seq, t.env.script)) =
    some (.preSleep, []) := by decide
theorem test_step_keeps_held_item : nextOf (step (State.withFetchWord base 8 0x06)) = some (State.withFetchWord base 8 0x06) := by decide
theorem test_step_wire_word_stays_for_its_high_byte :
    (nextOf (step (State.withFetchWord (answers (at_ (.emitLo 0xFFFF#16)) [true]) 16 0xFFFF))).map (fun t => (t.seq, t.env.script)) =
      some (.emitHi 0xFFFF#16, [.wire16 0xFFFF#16]) := by decide
theorem test_step_refuses_reserved : refusalOf (step (State.reset.withFetchWord 8 0x0C)) = some (.reservedOp 0x0C#8) := by decide
theorem test_step_refuses_bad_config : refusalOf (step { base with cfg := { cfg with prescale := 0 } }) = some .badConfig := by decide
/-- A word of duration 0 is never produced (R83): its item holds and stays (log 13). -/
theorem test_step_holds_at_zero_word : nextOf (step (State.withFetchWord base 16 0)) = some (State.withFetchWord base 16 0) := by decide

/-! ## Witnesses: the hypotheses of each statement are met, clause by clause -/

theorem witness_line_same : true = base.line := by decide
theorem witness_line_match : (false ≠ base.line) ∧ ((false = true ∧ base.edge = .rising) ∨ (false = false ∧ base.edge = .falling)) := by decide
theorem witness_line_match_rising : let s : State := { base with line := false, edge := .rising }
    (true ≠ s.line) ∧ ((true = true ∧ s.edge = .rising) ∨ (true = false ∧ s.edge = .falling)) := by decide
theorem witness_line_other : let s : State := { base with edge := .rising }
    (false ≠ s.line) ∧ ¬((false = true ∧ s.edge = .rising) ∨ (false = false ∧ s.edge = .falling)) := by decide
theorem witness_flags_set : flagged.capPending = true ∧ flagged.ovfPending = true ∧ flagged.cmpPending = true := by decide
theorem witness_flags_clear : base.capPending = false ∧ base.ovfPending = false ∧ base.cmpPending = false := by decide
theorem witness_check_pending : let s : State := { base with pm := slot 1#16 true 0#8 }
    s.seq = .check ∧ s.pm.rawTicks ≠ 0#16 := by decide
theorem witness_check_empty : base.seq = .check ∧ base.pm.rawTicks = 0#16 := by decide
theorem witness_not_check : (at_ .snap).seq ≠ .check ∧ (at_ .snap).seq ≠ .preSleep := by decide
theorem witness_presleep : (at_ .preSleep).seq = .preSleep ∧ (at_ .preSleep).seq ≠ .snap := by decide
theorem witness_snap : (at_ .snap).seq = .snap := by decide
theorem witness_snap_entered : let s : State := { base with pm := slot 0xFFFF#16 true 0#8 }
    exec .loopCheck s = .next { s with seq := .snap } ∧ s.seq ≠ .snap := ⟨rfl, by decide⟩
theorem witness_snap_zeroed : let s : State := { at_ .snap with pm := slot 8#16 true 0#8, icr := 0#16, capPending := true }
    ∃ t, exec .captureIsr s = .next t ∧ s.pm.rawTicks ≠ 0#16 ∧ t.seq = .snap ∧ t.pm.rawTicks = 0#16 :=
  ⟨_, rfl, by decide, by decide, by decide⟩
theorem witness_lit : (at_ (.lit (slot 7#16 true 0#8))).seq = .lit (slot 7#16 true 0#8) := by decide
theorem witness_not_lit : ∀ p, base.seq ≠ .lit p := fun _ => by simp [base, State.reset]
theorem witness_emit_lo_taken : let s := answers (at_ (.emitLo 0xFFFF#16)) [true]
    s.seq = .emitLo 0xFFFF#16 ∧ transportTakes s = true := by decide
theorem witness_emit_lo_waits : let s := answers (at_ (.emitLo 0x0001#16)) [false]
    s.seq = .emitLo 0x0001#16 ∧ transportTakes s = false := by decide
theorem witness_emit_hi_taken : let s := answers (at_ (.emitHi 0x7FFF#16)) [true]
    s.seq = .emitHi 0x7FFF#16 ∧ transportTakes s = true := by decide
theorem witness_emit_hi_waits : let s := answers (at_ (.emitHi 0x8001#16)) [false]
    s.seq = .emitHi 0x8001#16 ∧ transportTakes s = false := by decide
theorem witness_emit_elsewhere : ∀ w, base.seq ≠ .emitLo w ∧ base.seq ≠ .emitHi w := fun _ => by simp [base, State.reset]
theorem witness_reset_draws : let s : State := { base with env := { base.env with draws := [{ count := 0xFFFF#16, icr := 1#16, led := true }] } }
    s.env.draws = { count := 0xFFFF#16, icr := 1#16, led := true } :: [] := by decide
theorem witness_reserved_each_way : (0x20#8 : Byte).toNat / 32 ≠ 0 ∧ 12 ≤ (0x0C#8 : Byte).toNat % 16 ∧
    ((0x10#8 : Byte).toNat / 16 % 2 = 1 ∧ (0x10#8 : Byte).toNat % 16 ≠ 1 ∧ (0x10#8 : Byte).toNat % 16 ≠ 11) := by decide
theorem witness_not_reserved : ¬((0x1B#8 : Byte).toNat / 32 ≠ 0 ∨ 12 ≤ (0x1B#8 : Byte).toNat % 16 ∨
    ((0x1B#8 : Byte).toNat / 16 % 2 = 1 ∧ (0x1B#8 : Byte).toNat % 16 ≠ 1 ∧ (0x1B#8 : Byte).toNat % 16 ≠ 11)) := by decide
theorem witness_wire_word : (∃ l d, Instr.wireMeasurement true 1#15 = .wireMeasurement l d ∧ (0x8001#16 : Word) = measurementWord l d) :=
  ⟨true, 1#15, rfl, by decide⟩
theorem witness_step_scripted : let s := scripted base [.op8 0x00#8]
    configValid s.cfg = true ∧ s.env.script = .op8 0x00#8 :: [] ∧ decode (.op8 0x00#8) = .instr .tick := by decide
theorem witness_step_free : configValid base.cfg = true ∧ base.env.script = [] := by decide
theorem witness_step_plain : (∀ l d, Instr.tick ≠ .wireMeasurement l d) ∧ Instr.tick ≠ .wireOverflowHigh ∧ Instr.tick ≠ .wireOverflowLow :=
  ⟨fun _ _ => by simp, by decide, by decide⟩
theorem witness_step_zero_word : let s := scripted base [.wire16 0x8000#16, .op8 0x00#8]
    configValid s.cfg = true ∧ s.env.script = .wire16 0x8000#16 :: [.op8 0x00#8] ∧ decode (.wire16 0x8000#16) = .reservedWire 0x8000#16 := by decide
theorem witness_refusals : let s := scripted base [.op8 0x10#8]
    configValid s.cfg = true ∧ s.env.script = .op8 0x10#8 :: [] ∧ selectorReserved 0x10#8 = true ∧
      configValid { cfg with prescale := 0 } = false := by decide
theorem witness_bad_config : ¬(1 ≤ ({ cfg with prescale := 0 } : Config).prescale) := by decide
theorem witness_wf : (Instr.wireMeasurement true 32766#15).wf = true ∧ (Instr.wireMeasurement false 1#15).wf = true := by decide
theorem witness_decodes : decode (.wire16 0xFFFE#16) = .instr (.wireMeasurement true 32766#15) := by decide
theorem witness_loop_enters_idle : let s := scripted (at_ (.emitHi 0x0106#16)) [.op8 0x1B#8, .op8 0x05#8, .op8 0x06#8]
    configValid s.cfg = true ∧ s.env.script = .op8 (if true then 0x1B#8 else 0x0B#8) :: .op8 0x05#8 :: .op8 0x06#8 :: [] := by decide
theorem witness_convert_saturates : 1 ≤ 3906 ∧ (31248#16 : Word).toNat * 4096 / 3906 > 32767 := by decide
theorem witness_convert_floor : 1 ≤ 15625 ∧ (3#16 : Word).toNat * 4096 / 15625 = 0 := by decide
theorem witness_convert_exact : 1 ≤ 8192 ∧ 1 ≤ (65535#16 : Word).toNat * 4096 / 8192 ∧ (65535#16 : Word).toNat * 4096 / 8192 ≤ 32767 := by decide
theorem witness_convert_exact_low : 1 ≤ (4#16 : Word).toNat * 4096 / 15625 ∧ (4#16 : Word).toNat * 4096 / 15625 ≤ 32767 := by decide
theorem witness_monotone : (1#16 : Word).toNat ≤ (1#16 : Word).toNat ∧ 32767 ≤ (65535#16 : Word).toNat * 4096 / 8192 := by decide
theorem witness_saturation_threshold : 8 * 8191 ≤ (65528#16 : Word).toNat ∧ (65527#16 : Word).toNat < 8 * 8191 ∧
    (65535#16 : Word).toNat < 8 * 8192 := by decide
theorem witness_marker_set : (slot 0#16 false 0x7F#8).overflowMarker ≠ 0#8 ∧ (slot 9#16 true 0xFF#8).overflowMarker = 0xFF#8 := by decide
theorem witness_collision_low : encodeMeasurement 8192 65535#16 true = 0x7FFF#16 := by decide
theorem witness_collision_high : encodeMeasurement 8192 65535#16 false = 0xFFFF#16 := by decide
theorem witness_host : cfg.markerHigh = 0xFF#8 ∧ cfg.markerLow = 0x7F#8 ∧ 8193 ≤ scaleDen cfg ∧
    (slot 1#16 true 0xFF#8).overflowMarker = cfg.markerHigh ∧ (slot 1#16 true 0x7F#8).overflowMarker = cfg.markerLow ∧
    (slot 1#16 true 0#8).overflowMarker = 0#8 := by decide
theorem witness_remainder : (0x7F#8 : Byte) ≠ 0#8 := by decide
theorem witness_writers : ∃ t, exec .enterSleep (at_ .preSleep) = .next t ∧ isReset .enterSleep = false ∧ isLineSet .enterSleep = false :=
  ⟨_, rfl, rfl, rfl⟩
theorem witness_writers_set : let s : State := { base with count := 0xFFFF#16, cfg := Config.reference 0#16 }
    ∃ t, exec .tick s = .next t ∧ s.ovfPending = false ∧ t.ovfPending = true ∧ s.cmpPending = false ∧ t.cmpPending = true :=
  ⟨_, rfl, rfl, rfl, rfl, rfl⟩
theorem witness_writers_latch : ∃ t, exec (.lineSet false) base = .next t ∧ base.capPending = false ∧ t.capPending = true :=
  ⟨_, rfl, rfl, rfl⟩
theorem witness_writers_clear_cap : ∃ t, exec .captureIsr flagged = .next t ∧ flagged.capPending = true ∧ t.capPending = false :=
  ⟨_, rfl, rfl, rfl⟩
theorem witness_writers_clear_ovf : ∃ t, exec .overflowIsr flagged = .next t ∧ flagged.ovfPending = true ∧ t.ovfPending = false :=
  ⟨_, rfl, rfl, rfl⟩
theorem witness_writers_clear_cmp : ∃ t, exec .compareIsr flagged = .next t ∧ flagged.cmpPending = true ∧ t.cmpPending = false :=
  ⟨_, rfl, rfl, rfl⟩
theorem witness_led_changes : ∃ t, exec .compareIsr { flagged with led := true } = .next t ∧ t.led ≠ ({ flagged with led := true } : State).led :=
  ⟨_, rfl, by decide⟩
theorem witness_out_changes : let s := answers (at_ (.emitLo 0x1000#16)) [true]
    ∃ t, exec .emitLo s = .next t ∧ t.out ≠ s.out ∧ isReset .emitLo = false := ⟨_, rfl, by decide, rfl⟩
theorem witness_out_reset : ∃ t, exec (.reset true) { base with out := [6#8] } = .next t ∧ isReset (.reset true) = true := ⟨_, rfl, rfl⟩
theorem witness_disabled : (∀ op, Instr.loopCheck ≠ .reserved op) ∧ enabled .loopCheck (at_ .asleep) = false ∧ txValid (at_ .asleep) = false :=
  ⟨fun _ => by simp, by decide, by decide⟩
theorem witness_handler_enabled : enabled .captureIsr flagged = true ∧ enabled .overflowIsr flagged = true ∧
    enabled .compareIsr flagged = true ∧ flagged.seq ≠ .asleep := by decide
theorem witness_handler_asleep : let s : State := { flagged with seq := .asleep }
    enabled .compareIsr s = true ∧ s.seq = .asleep := by decide
theorem witness_sleep_ends : let s : State := { flagged with seq := .asleep }
    ∃ t, exec .overflowIsr s = .next t ∧ s.seq = .asleep ∧ t.seq ≠ .asleep ∧ t.pm ≠ s.pm ∧ isReset .overflowIsr = false :=
  ⟨_, rfl, rfl, by decide, by decide, rfl⟩
theorem witness_handlers : (Instr.captureIsr = .captureIsr ∨ Instr.captureIsr = .overflowIsr ∨ Instr.captureIsr = .compareIsr) ∧
    (Instr.overflowIsr = .captureIsr ∨ Instr.overflowIsr = .overflowIsr ∨ Instr.overflowIsr = .compareIsr) := by decide
theorem witness_repeated_overflow : ∃ t u, flagged.ovfPending = true ∧ exec .overflowIsr flagged = .next t ∧
    (∀ i ∈ [Instr.tick], i ≠ .snapshot ∧ isReset i = false ∧ isLineSet i = false) ∧
    execAll ([.tick] ++ [.overflowIsr]) t = .next u := ⟨_, _, rfl, rfl, by decide, rfl⟩
theorem witness_zero_capture : let s : State := { flagged with seq := .snap }
    flagged.capPending = true ∧ flagged.icr = 0#16 ∧ flagged.seq = .check ∧
    s.capPending = true ∧ s.icr = 0#16 ∧ s.seq = .snap ∧ s.pm.overflowMarker = 0#8 ∧ 1 ≤ scaleDen s.cfg := by decide
theorem witness_one_pass : let s := answers { base with pm := slot 15625#16 true 0#8 } [true, true]
    s.seq = .check ∧ s.pm.rawTicks ≠ 0#16 ∧ s.env.ready = true :: true :: [] := by decide
theorem witness_overflow_drain : let s := answers { flagged with icr := 100#16 } [true, true, false]
    configValid s.cfg = true ∧ s.seq = .check ∧ s.ovfPending = true ∧ s.capPending = true ∧ s.icr ≠ 0#16 ∧
    s.env.ready = true :: true :: [false] := by decide
theorem witness_marker_alone : let s : State := { flagged with seq := .asleep }
    s.seq = .asleep ∧ s.ovfPending = true ∧ s.pm.rawTicks = 0#16 := by decide
theorem witness_lost_wake_up : let s : State := { flagged with icr := 500#16 }
    s.seq = .check ∧ s.pm.rawTicks = 0#16 ∧ s.capPending = true ∧ s.icr ≠ 0#16 ∧ s.cmpPending = true ∧ s.ovfPending = true := by decide
theorem witness_glitch : base.line = true ∧ base.edge = .falling ∧ base.cfg.levelSource = .lineSample ∧
    ({ cfg with levelSource := .edgeSelect } : Config).levelSource = .edgeSelect := by decide
theorem witness_race : let s : State := { base with capPending := true, count := 0xFFFF#16, icr := 0xFFFE#16 }
    configValid s.cfg = true ∧ s.capPending = true ∧ s.count = 0xFFFF#16 ∧ s.seq = .check ∧ s.icr ≠ 0#16 := by decide
theorem witness_polarity_agrees : polarityAgrees base ∧ false ≠ base.line ∧ isLineSet .tick = false ∧ Instr.tick ≠ .captureIsr ∧
    ∃ t, exec .tick base = .next t := ⟨rfl, by decide, rfl, by decide, _, rfl⟩
theorem witness_indicator_run : ∃ t, execAll [.tick, .loopCheck] base = .next t := ⟨_, rfl⟩
theorem witness_compare_event : let s : State := { base with capPending := true }
    ∃ t, s.capPending = true ∧ s.cmpPending = false ∧ 1 ≤ s.cfg.compareValue.toNat ∧ exec .captureIsr s = .next t ∧
      0x3FFF < s.cfg.compareValue.toNat := ⟨_, rfl, rfl, by decide, rfl, by decide⟩
theorem witness_capture_measures : ∃ u t, (∀ i ∈ [Instr.tick], i ≠ .captureIsr ∧ isReset i = false) ∧
    (∀ i ∈ [Instr.loopCheck], i ≠ .captureIsr ∧ isReset i = false ∧ isLineSet i = false) ∧
    execAll [.tick] base = .next u ∧ false ≠ u.line ∧ base.edge = (if false then .rising else .falling) ∧
    execAll ([.lineSet false] ++ [.loopCheck] ++ [.captureIsr]) u = .next t :=
  ⟨_, _, by decide, by decide, rfl, by decide, rfl, rfl⟩
theorem witness_asleep : (at_ .asleep).seq = .asleep := by decide
theorem witness_reach_check : (answers (at_ (.emitLo 0x1000#16)) [true, true]).env.ready = true :: true :: [] := by decide
/-- The invariant's premise is met by the state after reset with a TICK scripted, and its step answers a next state. -/
theorem witness_invariant_step : ∃ t, Inv (State.reset.withFetchWord 8 0) ∧ step (State.reset.withFetchWord 8 0) = .next t :=
  ⟨_, { config := configValid_reference _, slotMarker := .inl rfl, heldMarker := (fun _ h => by cases h),
        inFlight := (fun _ h => by rcases h with h | h <;> cases h), stream := ⟨[], by simp, rfl⟩ }, rfl⟩
theorem witness_stream_run : ∃ t, (∀ i ∈ [Instr.snapshot, Instr.indicatorOn], isReset i = false) ∧
    execAll [.snapshot, .indicatorOn] { at_ .snap with pm := slot 8#16 true 0#8 } = .next t := ⟨_, by decide, rfl⟩

end Sys2Proof.Tests
end

section
/-! TICK and LINE_SET (R110 to R112): their forward equations, and the statements about them. -/

namespace Sys2Proof.Machine

/-! ## The flags and the edge match as the rules say them -/

/-- R110's compare match is on the new count as a number modulo 2^16. -/
theorem compareFlag_add_one (c : Config) (count : Word) (flag : Bool) :
    compareFlag c (count + 1#16) flag =
      if (count.toNat + 1) % 65536 = c.compareValue.toNat then true else flag := by
  simp only [compareFlag, ← BitVec.toNat_inj, BitVec.toNat_add, BitVec.toNat_ofNat, Nat.reducePow, Nat.reduceMod]

/-- On a transition R112's predicate depends on the new level and the polarity alone. -/
theorem edgeMatches_iff_of_ne {old v : Bool} (h : v ≠ old) (edge : Edge) :
    edgeMatches old v edge = true ↔ (v = true ∧ edge = .rising) ∨ (v = false ∧ edge = .falling) := by
  obtain rfl : old = !v := Bool.eq_not.mpr h.symm
  cases v <;> simp [edgeMatches]

/-! ## The meanings, forward -/

theorem exec_tick (s : State) :
    exec .tick s = .next { s with
      count := s.count + 1#16
      ovfPending := rolloverFlag s.count s.ovfPending
      cmpPending := compareFlag s.cfg (s.count + 1#16) s.cmpPending } := rfl

theorem exec_lineSet_of_eq {v : Bool} {s : State} (h : v = s.line) : exec (.lineSet v) s = .next s :=
  if_pos h

theorem exec_lineSet_of_match {v : Bool} {s : State} (h : v ≠ s.line) (hm : edgeMatches s.line v s.edge = true) :
    exec (.lineSet v) s = .next { s with line := v, icr := s.count, capPending := true } :=
  (if_neg h).trans (if_pos hm)

theorem exec_lineSet_of_not_match {v : Bool} {s : State} (h : v ≠ s.line)
    (hm : ¬ edgeMatches s.line v s.edge = true) : exec (.lineSet v) s = .next { s with line := v } :=
  (if_neg h).trans (if_neg hm)

/-! ## The statements -/

/-- Settles O1: the forward equation of TICK, with the word sum and the compare match read as numbers modulo 2^16. -/
theorem tickAdvancesCountAndSetsFlags : Obligations.TickAdvancesCountAndSetsFlags := by
  intro s
  have hcount : BitVec.ofNat 16 (s.count.toNat + 1) = s.count + 1#16 := by
    rw [BitVec.ofNat_add, BitVec.ofNat_toNat, BitVec.setWidth_eq]
  rw [exec_tick, compareFlag_add_one, hcount, rolloverFlag]

/-- Settles O2: one clause for each branch of LINE_SET, R112's predicate turned into the clause's polarity condition. -/
theorem lineSetLatchesSelectedEdge : Obligations.LineSetLatchesSelectedEdge := by
  intro v s
  refine ⟨exec_lineSet_of_eq, fun hne hsel => ?_, fun hne hother => ?_⟩
  · exact exec_lineSet_of_match hne ((edgeMatches_iff_of_ne hne s.edge).mpr hsel)
  · exact exec_lineSet_of_not_match hne (mt (edgeMatches_iff_of_ne hne s.edge).mp hother)

end Sys2Proof.Machine
end

section
/-! The timescale converter (R161 to R164): the statement about Convert's saturation and its zero floor. -/

namespace Sys2Proof.Machine

/-- Settles O22: the clamp of `toNat_convert`, read in each of the three ranges of the scaled value. -/
theorem convertSaturatesAndFloors : Obligations.ConvertSaturatesAndFloors := by
  intro den t _
  have hclamp : (convert den t).toNat = min 32767 (max 1 (t.toNat * 4096 / den)) := toNat_convert den t
  refine ⟨fun habove => BitVec.eq_of_toNat_eq ?_, fun hzero => BitVec.eq_of_toNat_eq ?_, fun hpos hle => ?_⟩
  · rw [hclamp, max_eq_right (by omega), min_eq_left habove.le]
    rfl
  · rw [hclamp, hzero]
    rfl
  · rw [hclamp, max_eq_right hpos, min_eq_right hle]

end Sys2Proof.Machine
end

section
/-! The encoder and INDICATOR_ON (R181 to R183, R191): the overflow word, and what a set marker makes irrelevant. -/

namespace Sys2Proof.Machine

/-! ## The overflow word -/

/-- R182: under a set marker the encoded word depends on the marker alone. -/
theorem encodeWord_of_marker {p : PendingMeasurement} (h : p.overflowMarker ≠ 0#8) (c : Config) :
    encodeWord c p = encodeOverflow p.overflowMarker :=
  if_pos h

@[simp] theorem lowByte_encodeOverflow (m : Byte) : lowByte (encodeOverflow m) = 0xFF#8 := by
  apply BitVec.eq_of_toNat_eq
  rw [toNat_lowByte, toNat_encodeOverflow, Nat.mul_add_mod_self_right]
  rfl

@[simp] theorem highByte_encodeOverflow (m : Byte) : highByte (encodeOverflow m) = m := by
  apply BitVec.eq_of_toNat_eq
  rw [toNat_highByte, toNat_encodeOverflow]
  omega

theorem serialize_encodeOverflow (m : Byte) : serialize (encodeOverflow m) = [0xFF#8, m] := by
  rw [serialize, lowByte_encodeOverflow, highByte_encodeOverflow]

/-! ## INDICATOR_ON, forward -/

theorem exec_indicatorOn_of_lit {s : State} {p : PendingMeasurement} (h : s.seq = .lit p) :
    exec .indicatorOn s = .next { s with led := true, seq := .emitLo (encodeWord s.cfg p) } := by
  simp only [exec, execIndicatorOn, h]

/-! ## The statements -/

/-- Settles O27: the encoded word is the marker's overflow word, read as a number, as its two bytes, and at the two markers
of D4. -/
theorem overflowWordCarriesTheMarker : Obligations.OverflowWordCarriesTheMarker := by
  intro c p hmarker
  rw [encodeWord_of_marker hmarker]
  refine ⟨toNat_encodeOverflow _, serialize_encodeOverflow _, fun hhigh => ?_, fun hlow => ?_⟩
  · rw [hhigh]
    rfl
  · rw [hlow]
    rfl

/-- Settles O31: both steps hold the overflow word of the one marker, and the rest of the snapshot leaves the state with the
old sequencer value. -/
theorem remainderBesideMarkerIsDiscarded : Obligations.RemainderBesideMarkerIsDiscarded := by
  intro s m t u a b hmarker
  rw [exec_indicatorOn_of_lit rfl, exec_indicatorOn_of_lit rfl, encodeWord_of_marker hmarker,
    encodeWord_of_marker hmarker]

end Sys2Proof.Machine
end

section
/-! The handlers and the loop (R212): every handler step ends with the wake, whose effect on the sequencer is stated once. -/

namespace Sys2Proof.Machine

/-! ## The wake, in each of its two cases -/

theorem wake_seq_of_asleep {s : State} (h : s.seq = .asleep) : (wake s).seq = .check := if_pos h

theorem wake_seq_of_ne_asleep {s : State} (h : s.seq ≠ .asleep) : (wake s).seq = s.seq := if_neg h

/-! ## The handlers, forward -/

/-- R212: an enabled handler's effect leaves the sequencer to the wake that ends the step. -/
theorem exec_handler_ends_with_wake {i : Instr} {s : State}
    (hi : i = .captureIsr ∨ i = .overflowIsr ∨ i = .compareIsr) (hen : enabled i s = true) :
    ∃ u : State, exec i s = .next (wake u) ∧ u.seq = s.seq := by
  rcases hi with rfl | rfl | rfl
  · exact ⟨recordCapture s, exec_captureIsr_of_pending hen, recordCapture_seq s⟩
  · exact ⟨recordOverflow s, exec_overflowIsr_of_pending hen, recordOverflow_seq s⟩
  · exact ⟨indicatorOff s, exec_compareIsr_of_pending hen, indicatorOff_seq s⟩

/-! ## The statements -/

/-- Settles O37: the handler's effect keeps the sequencer, so the two cases of the wake are those of the state before. -/
theorem everyHandlerWakesTheLoop : Obligations.EveryHandlerWakesTheLoop := by
  intro i s hi hen
  obtain ⟨u, hexec, hseq⟩ := exec_handler_ends_with_wake hi hen
  refine ⟨wake u, hexec, fun hasleep => ?_, fun hawake => ?_⟩
  · exact wake_seq_of_asleep (hseq.trans hasleep)
  · rw [wake_seq_of_ne_asleep (hseq ▸ hawake), hseq]

end Sys2Proof.Machine
end

section
/-! The meanings, forward: one equation for each case of an operation that the text above does not give yet, and the
statements that say an operation's whole effect (R113, R140, R143, R180, R181, R186, R187, R210, R211, R260, log 11). -/

namespace Sys2Proof.Machine

/-! ## The loop's tests -/

theorem exec_loopCheck_of_pending {s : State} (h : s.seq = .check) (ht : s.pm.rawTicks ≠ 0#16) :
    exec .loopCheck s = .next { s with seq := .snap } := by
  simp [exec, execLoopCheck, measurementPending, h, ht]

theorem exec_loopCheck_of_empty {s : State} (h : s.seq = .check) (ht : s.pm.rawTicks = 0#16) :
    exec .loopCheck s = .next { s with seq := .preSleep } := by
  simp [exec, execLoopCheck, measurementPending, h, ht]

theorem exec_loopCheck_of_ne {s : State} (h : s.seq ≠ .check) : exec .loopCheck s = .next s := if_neg h

theorem exec_enterSleep_of_preSleep {s : State} (h : s.seq = .preSleep) :
    exec .enterSleep s = .next { s with seq := .asleep } := if_pos h

theorem exec_enterSleep_of_ne {s : State} (h : s.seq ≠ .preSleep) : exec .enterSleep s = .next s := if_neg h

/-! ## The drain -/

theorem exec_snapshot_of_snap {s : State} (h : s.seq = .snap) :
    exec .snapshot s = .next { s with pm := PendingMeasurement.zero, seq := .lit s.pm } := if_pos h

theorem exec_snapshot_of_ne {s : State} (h : s.seq ≠ .snap) : exec .snapshot s = .next s := if_neg h

theorem exec_indicatorOn_of_not_lit {s : State} (h : isLit s.seq = false) : exec .indicatorOn s = .next s := by
  cases hq : s.seq <;> simp_all [exec, execIndicatorOn, isLit]

theorem exec_emitLo_of_not_due {s : State} (h : isEmitLo s.seq = false) : exec .emitLo s = .next s := by
  cases hq : s.seq <;> simp_all [exec, execEmitLo, isEmitLo]

theorem exec_emitHi_of_not_due {s : State} (h : isEmitHi s.seq = false) : exec .emitHi s = .next s := by
  cases hq : s.seq <;> simp_all [exec, execEmitHi, isEmitHi]

/-! ## The emission of a wire word (log 11) -/

theorem transferWord_of_emitLo {s : State} {w : Word} (h : s.seq = .emitLo w) : transferWord w s = sendLow w s := by
  simp [transferWord, h]

theorem transferWord_of_emitHi {s : State} {w : Word} (h : s.seq = .emitHi w) : transferWord w s = sendHigh w s := by
  simp [transferWord, h]

theorem transferWord_of_not_due {s : State} {w : Word} (h : wordDue w s = false) : transferWord w s = .next s := by
  cases hq : s.seq <;> simp_all [transferWord, wordDue]

/-! ## The handlers with a clear flag, and RESET -/

theorem exec_captureIsr_of_clear {s : State} (h : s.capPending = false) : exec .captureIsr s = .next s :=
  takeInterrupt_clear h _ _

theorem exec_overflowIsr_of_clear {s : State} (h : s.ovfPending = false) : exec .overflowIsr s = .next s :=
  takeInterrupt_clear h _ _

theorem exec_compareIsr_of_clear {s : State} (h : s.cmpPending = false) : exec .compareIsr s = .next s :=
  takeInterrupt_clear h _ _

theorem exec_reset (v : Bool) (s : State) : exec (.reset v) s = .next (resetBlock v (resetDraw s) (spendDraw s)) := rfl

/-! ## Bytes as the rules write them -/

theorem lowByte_eq_ofNat (w : Word) : lowByte w = BitVec.ofNat 8 (w.toNat % 256) := by
  apply BitVec.eq_of_toNat_eq
  simp

theorem highByte_eq_ofNat (w : Word) : highByte w = BitVec.ofNat 8 (w.toNat / 256) := by
  apply BitVec.eq_of_toNat_eq
  rw [toNat_highByte, BitVec.toNat_ofNat]
  omega

theorem flipEdge_eq_ite (e : Edge) : flipEdge e = if e = .rising then .falling else .rising := by
  cases e <;> rfl

/-! ## The statements -/

/-- Settles O3: the handler's effect followed by the wake, with R114's level and the opposite polarity written out. -/
theorem captureIsrRecordsInterval : Obligations.CaptureIsrRecordsInterval := by
  intro s
  refine ⟨fun hpend => ?_, exec_captureIsr_of_clear⟩
  rw [exec_captureIsr_of_pending hpend, ← flipEdge_eq_ite]
  rfl

/-- Settles O4: the handler's effect followed by the wake. -/
theorem overflowIsrRecordsMarker : Obligations.OverflowIsrRecordsMarker :=
  fun _ => ⟨exec_overflowIsr_of_pending, exec_overflowIsr_of_clear⟩

/-- Settles O5: the handler's effect followed by the wake. -/
theorem compareIsrTurnsIndicatorOff : Obligations.CompareIsrTurnsIndicatorOff :=
  fun _ => ⟨exec_compareIsr_of_pending, exec_compareIsr_of_clear⟩

/-- Settles O6: the two outcomes of the test, and the hold. -/
theorem loopCheckTestsRawTicks : Obligations.LoopCheckTestsRawTicks :=
  fun _ => ⟨exec_loopCheck_of_pending, exec_loopCheck_of_empty, exec_loopCheck_of_ne⟩

/-- Settles O7: at `Asleep` no operation of the main loop is at its sequencer state. -/
theorem enterSleepHaltsTheLoop : Obligations.EnterSleepHaltsTheLoop := by
  refine ⟨fun _ => ⟨exec_enterSleep_of_preSleep, exec_enterSleep_of_ne⟩, fun i s hasleep hi => ?_⟩
  rcases hi with rfl | rfl | rfl | rfl | rfl | rfl
  · exact exec_loopCheck_of_ne (by simp [hasleep])
  · exact exec_enterSleep_of_ne (by simp [hasleep])
  · exact exec_snapshot_of_ne (by simp [hasleep])
  · exact exec_indicatorOn_of_not_lit (by simp [hasleep, isLit])
  · exact exec_emitLo_of_not_due (by simp [hasleep, isEmitLo])
  · exact exec_emitHi_of_not_due (by simp [hasleep, isEmitHi])

/-- Settles O9: `Encode` written out as R182 and R184 give it. -/
theorem indicatorOnEncodesSnapshot : Obligations.IndicatorOnEncodesSnapshot := by
  refine ⟨fun s p hlit => ?_, fun s hne => exec_indicatorOn_of_not_lit ?_⟩
  · rw [exec_indicatorOn_of_lit hlit, encodeWord, encodeMeasurement, measurementWord]
    cases p.exitedLevelHigh <;> rfl
  · cases hq : s.seq <;> simp_all [isLit]

/-- Settles O10: the offer of the low byte, taken and held, and the hold elsewhere. -/
theorem emitLoSendsLowByte : Obligations.EmitLoSendsLowByte := by
  intro s
  refine ⟨fun w hdue htakes => ?_, fun w hdue hheld => ?_, fun hne => exec_emitLo_of_not_due ?_⟩
  · rw [exec_emitLo_of_due hdue, sendLow, offerByte_taken htakes, spendReady_eq, spendReady_env, lowByte_eq_ofNat]
  · rw [exec_emitLo_of_due hdue, sendLow, offerByte_held hheld, spendReady_eq, spendReady_env]
  · cases hq : s.seq <;> simp_all [isEmitLo]

/-- Settles O11: the offer of the high byte, taken and held, and the hold elsewhere. -/
theorem emitHiSendsHighByte : Obligations.EmitHiSendsHighByte := by
  intro s
  refine ⟨fun w hdue htakes => ?_, fun w hdue hheld => ?_, fun hne => exec_emitHi_of_not_due ?_⟩
  · rw [exec_emitHi_of_due hdue, sendHigh, offerByte_taken htakes, spendReady_eq, spendReady_env, highByte_eq_ofNat]
  · rw [exec_emitHi_of_due hdue, sendHigh, offerByte_held hheld, spendReady_eq, spendReady_env]
  · cases hq : s.seq <;> simp_all [isEmitHi]

/-- Settles O12: the draws are those of `resetDraw`, the head of the list when there is one. -/
theorem resetWritesEveryField : Obligations.ResetWritesEveryField := by
  refine ⟨fun v s => ⟨(resetDraw s).count, (resetDraw s).icr, (resetDraw s).led, ?_⟩,
    fun v s c i l rest hdraws => ⟨_, exec_reset v s, ?_⟩⟩
  · rw [exec_reset, ← spendDraw_env]
    rfl
  · rw [resetDraw_of_draws hdraws]
    exact ⟨rfl, rfl, rfl⟩

/-- A wire row executes as the emission of its word (log 11). -/
theorem exec_wireRow {i : Instr} {w : Word}
    (h : (∃ l d, i = .wireMeasurement l d ∧ w = measurementWord l d) ∨ (i = .wireOverflowHigh ∧ w = 0xFFFF#16) ∨
      (i = .wireOverflowLow ∧ w = 0x7FFF#16)) (s : State) : exec i s = transferWord w s := by
  rcases h with ⟨l, d, rfl, rfl⟩ | ⟨rfl, rfl⟩ | ⟨rfl, rfl⟩ <;> rfl

/-- Settles O14: the emission of the row's word is the offer that EMIT_LO or EMIT_HI makes of it when it is due. -/
theorem wireWordExecutesAsItsEmission : Obligations.WireWordExecutesAsItsEmission := by
  intro i w hrow s
  rw [exec_wireRow hrow]
  refine ⟨fun hlo htakes => ?_, fun hhi htakes => ?_, fun hdue hheld => ⟨(spendReady s).env, ?_⟩, fun hlo hhi => ?_⟩
  · rw [transferWord_of_emitLo hlo, exec_emitLo_of_due hlo, sendLow, offerByte_taken htakes]
    exact ⟨_, rfl, rfl, rfl, rfl⟩
  · rw [transferWord_of_emitHi hhi, exec_emitHi_of_due hhi, sendHigh, offerByte_taken htakes]
    exact ⟨_, rfl, rfl, rfl, rfl⟩
  · rcases hdue with hlo | hhi
    · rw [transferWord_of_emitLo hlo]
      exact offerByte_held hheld _ _
    · rw [transferWord_of_emitHi hhi]
      exact offerByte_held hheld _ _
  · exact transferWord_of_not_due (by simp [wordDue, hlo, hhi])

end Sys2Proof.Machine
end

section
/-! What one operation can do, once: the relation `Transition` has one rule for each effect of an operation and is exactly
`exec` where that answers a next state. The statements about who writes what follow from it by cases (R35, R37, R245). -/

namespace Sys2Proof.Machine

/-! ## Attempts at a byte -/

/-- Whether the operation offers the byte that is due to the transport: EMIT_LO, EMIT_HI, or the row of that very word. -/
def attempts (i : Instr) (s : State) : Bool :=
  match i with
  | .tick => false
  | .lineSet _ => false
  | .captureIsr => false
  | .overflowIsr => false
  | .compareIsr => false
  | .loopCheck => false
  | .enterSleep => false
  | .snapshot => false
  | .indicatorOn => false
  | .emitLo => isEmitLo s.seq
  | .emitHi => isEmitHi s.seq
  | .reset _ => false
  | .reserved _ => false
  | .wireMeasurement l d => wordDue (measurementWord l d) s
  | .wireOverflowHigh => wordDue (encodeOverflow 0xFF#8) s
  | .wireOverflowLow => wordDue (encodeOverflow 0x7F#8) s

/-- An attempt is made only while a byte is offered (R36). -/
theorem txValid_of_attempts {i : Instr} {s : State} (h : attempts i s = true) : txValid s = true := by
  cases i <;> cases hq : s.seq <;> simp_all [attempts, wordDue, isEmitLo, isEmitHi, txValid]

/-- An attempt of an operation is enabled exactly when the transport takes the byte. -/
theorem enabled_of_attempts {i : Instr} {s : State} (h : attempts i s = true) : enabled i s = transportTakes s := by
  cases i <;> simp_all [attempts, enabled]

/-- The operations that make an attempt. -/
theorem emission_of_attempts {i : Instr} {s : State} (h : attempts i s = true) :
    i = .emitLo ∨ i = .emitHi ∨ i = .wireOverflowHigh ∨ i = .wireOverflowLow ∨ ∃ l d, i = .wireMeasurement l d := by
  cases i <;> simp_all [attempts]

theorem eq_of_wordDue {v w : Word} {s : State} (h : wordDue v s = true) (hq : s.seq = .emitLo w ∨ s.seq = .emitHi w) :
    v = w := by
  rcases hq with hq | hq <;> simpa [wordDue, hq, eq_comm] using h

/-- An attempt is a step of the emission of the word in flight, whichever operation makes it. -/
theorem exec_of_attempts {i : Instr} {s : State} {w : Word} (h : attempts i s = true)
    (hq : s.seq = .emitLo w ∨ s.seq = .emitHi w) : exec i s = transferWord w s := by
  cases i with
  | emitLo =>
    have hlo : s.seq = .emitLo w := hq.resolve_right fun hhi => by simp [attempts, isEmitLo, hhi] at h
    rw [exec_emitLo_of_due hlo, transferWord_of_emitLo hlo]
  | emitHi =>
    have hhi : s.seq = .emitHi w := hq.resolve_left fun hlo => by simp [attempts, isEmitHi, hlo] at h
    rw [exec_emitHi_of_due hhi, transferWord_of_emitHi hhi]
  | wireMeasurement l d =>
    rw [← eq_of_wordDue h hq]
    rfl
  | wireOverflowHigh =>
    rw [← eq_of_wordDue h hq]
    rfl
  | wireOverflowLow =>
    rw [← eq_of_wordDue h hq]
    rfl
  | _ => cases h

theorem exec_of_attempts_low {i : Instr} {s : State} {w : Word} (h : attempts i s = true) (hq : s.seq = .emitLo w) :
    exec i s = sendLow w s :=
  (exec_of_attempts h (.inl hq)).trans (transferWord_of_emitLo hq)

theorem exec_of_attempts_high {i : Instr} {s : State} {w : Word} (h : attempts i s = true) (hq : s.seq = .emitHi w) :
    exec i s = sendHigh w s :=
  (exec_of_attempts h (.inr hq)).trans (transferWord_of_emitHi hq)

/-- An attempt is at a byte that is due, the low or the high one of a word. -/
theorem seq_of_attempts {i : Instr} {s : State} (h : attempts i s = true) :
    (∃ w, s.seq = .emitLo w) ∨ ∃ w, s.seq = .emitHi w := by
  have hvalid := txValid_of_attempts h
  cases hq : s.seq <;> simp_all [txValid]

theorem exec_of_attempts_held {i : Instr} {s : State} (h : attempts i s = true) (hheld : transportTakes s = false) :
    exec i s = .next (spendReady s) := by
  rcases seq_of_attempts h with ⟨w, hq⟩ | ⟨w, hq⟩
  · rw [exec_of_attempts_low h hq]
    exact offerByte_held hheld _ _
  · rw [exec_of_attempts_high h hq]
    exact offerByte_held hheld _ _

/-- A disabled operation that makes no attempt changes nothing at all (R11; log 3). -/
theorem exec_of_disabled {i : Instr} {s : State} (hop : ∀ op, i ≠ .reserved op) (hen : enabled i s = false)
    (hatt : attempts i s = false) : exec i s = .next s := by
  cases i with
  | tick => cases hen
  | lineSet v => cases hen
  | captureIsr => exact exec_captureIsr_of_clear hen
  | overflowIsr => exact exec_overflowIsr_of_clear hen
  | compareIsr => exact exec_compareIsr_of_clear hen
  | loopCheck => exact exec_loopCheck_of_ne (of_decide_eq_false hen)
  | enterSleep => exact exec_enterSleep_of_ne (of_decide_eq_false hen)
  | snapshot => exact exec_snapshot_of_ne (of_decide_eq_false hen)
  | indicatorOn => exact exec_indicatorOn_of_not_lit hen
  | emitLo => exact exec_emitLo_of_not_due hatt
  | emitHi => exact exec_emitHi_of_not_due hatt
  | reset v => cases hen
  | reserved op => exact absurd rfl (hop op)
  | wireMeasurement l d => exact transferWord_of_not_due hatt
  | wireOverflowHigh => exact transferWord_of_not_due hatt
  | wireOverflowLow => exact transferWord_of_not_due hatt

/-! ## The relation -/

/-- What an operation does to a state when it answers a next state, one rule for each effect. -/
inductive Transition : Instr → State → State → Prop
  | hold {i : Instr} {s : State} (hop : ∀ op, i ≠ .reserved op) (hen : enabled i s = false)
      (hatt : attempts i s = false) : Transition i s s
  | wait {i : Instr} {s : State} (hatt : attempts i s = true) (hheld : transportTakes s = false) :
      Transition i s (spendReady s)
  | tick (s : State) : Transition .tick s { s with
      count := s.count + 1#16
      ovfPending := rolloverFlag s.count s.ovfPending
      cmpPending := compareFlag s.cfg (s.count + 1#16) s.cmpPending }
  | lineStay {v : Bool} {s : State} (hv : v = s.line) : Transition (.lineSet v) s s
  | lineLatch {v : Bool} {s : State} (hv : v ≠ s.line) (hm : edgeMatches s.line v s.edge = true) :
      Transition (.lineSet v) s { s with line := v, icr := s.count, capPending := true }
  | lineMove {v : Bool} {s : State} (hv : v ≠ s.line) (hm : edgeMatches s.line v s.edge = false) :
      Transition (.lineSet v) s { s with line := v }
  | capture {s : State} (hp : s.capPending = true) : Transition .captureIsr s (wake (recordCapture s))
  | overflow {s : State} (hp : s.ovfPending = true) : Transition .overflowIsr s (wake (recordOverflow s))
  | compare {s : State} (hp : s.cmpPending = true) : Transition .compareIsr s (wake (indicatorOff s))
  | checkPending {s : State} (hq : s.seq = .check) (ht : s.pm.rawTicks ≠ 0#16) :
      Transition .loopCheck s { s with seq := .snap }
  | checkEmpty {s : State} (hq : s.seq = .check) (ht : s.pm.rawTicks = 0#16) :
      Transition .loopCheck s { s with seq := .preSleep }
  | sleep {s : State} (hq : s.seq = .preSleep) : Transition .enterSleep s { s with seq := .asleep }
  | snapshot {s : State} (hq : s.seq = .snap) :
      Transition .snapshot s { s with pm := PendingMeasurement.zero, seq := .lit s.pm }
  | light {s : State} {p : PendingMeasurement} (hq : s.seq = .lit p) :
      Transition .indicatorOn s { s with led := true, seq := .emitLo (encodeWord s.cfg p) }
  | sendLow {i : Instr} {s : State} {w : Word} (hatt : attempts i s = true) (hq : s.seq = .emitLo w)
      (htakes : transportTakes s = true) :
      Transition i s { spendReady s with out := s.out ++ [lowByte w], seq := .emitHi w }
  | sendHigh {i : Instr} {s : State} {w : Word} (hatt : attempts i s = true) (hq : s.seq = .emitHi w)
      (htakes : transportTakes s = true) :
      Transition i s { spendReady s with out := s.out ++ [highByte w], seq := .check }
  | reset (v : Bool) (s : State) : Transition (.reset v) s (resetBlock v (resetDraw s) (spendDraw s))

/-- An attempt either waits or sends the byte that is due. -/
theorem Transition.total_of_attempts {i : Instr} {s : State} (h : attempts i s = true) : ∃ t, Transition i s t := by
  cases htakes : transportTakes s
  · exact ⟨_, .wait h htakes⟩
  · rcases seq_of_attempts h with ⟨w, hq⟩ | ⟨w, hq⟩
    · exact ⟨_, .sendLow h hq htakes⟩
    · exact ⟨_, .sendHigh h hq htakes⟩

/-- Every operation but RESERVED has a transition from every state. -/
theorem Transition.total {i : Instr} (hop : ∀ op, i ≠ .reserved op) (s : State) : ∃ t, Transition i s t := by
  by_cases hatt : attempts i s = true
  · exact total_of_attempts hatt
  rw [Bool.not_eq_true] at hatt
  by_cases hen : enabled i s = true
  · cases i with
    | tick => exact ⟨_, .tick s⟩
    | lineSet v =>
      by_cases hv : v = s.line
      · exact ⟨_, .lineStay hv⟩
      · cases hm : edgeMatches s.line v s.edge
        · exact ⟨_, .lineMove hv hm⟩
        · exact ⟨_, .lineLatch hv hm⟩
    | captureIsr => exact ⟨_, .capture hen⟩
    | overflowIsr => exact ⟨_, .overflow hen⟩
    | compareIsr => exact ⟨_, .compare hen⟩
    | loopCheck =>
      by_cases ht : s.pm.rawTicks = 0#16
      · exact ⟨_, .checkEmpty (of_decide_eq_true hen) ht⟩
      · exact ⟨_, .checkPending (of_decide_eq_true hen) ht⟩
    | enterSleep => exact ⟨_, .sleep (of_decide_eq_true hen)⟩
    | snapshot => exact ⟨_, .snapshot (of_decide_eq_true hen)⟩
    | indicatorOn =>
      cases hq : s.seq with
      | lit p => exact ⟨_, .light hq⟩
      | _ => simp [enabled, isLit, hq] at hen
    | reset v => exact ⟨_, .reset v s⟩
    | reserved op => exact absurd rfl (hop op)
    | _ => simp_all [enabled, attempts]
  · exact ⟨_, .hold hop (Bool.not_eq_true _ ▸ hen) hatt⟩

/-- Each rule is what the machine does. -/
theorem Transition.exec_eq {i : Instr} {s t : State} (h : Transition i s t) : exec i s = .next t := by
  cases h with
  | hold hop hen hatt => exact exec_of_disabled hop hen hatt
  | wait hatt hheld => exact exec_of_attempts_held hatt hheld
  | tick => rfl
  | lineStay hv => exact exec_lineSet_of_eq hv
  | lineLatch hv hm => exact exec_lineSet_of_match hv hm
  | lineMove hv hm => exact exec_lineSet_of_not_match hv (by simp [hm])
  | capture hp => exact exec_captureIsr_of_pending hp
  | overflow hp => exact exec_overflowIsr_of_pending hp
  | compare hp => exact exec_compareIsr_of_pending hp
  | checkPending hq ht => exact exec_loopCheck_of_pending hq ht
  | checkEmpty hq ht => exact exec_loopCheck_of_empty hq ht
  | sleep hq => exact exec_enterSleep_of_preSleep hq
  | snapshot hq => exact exec_snapshot_of_snap hq
  | light hq => exact exec_indicatorOn_of_lit hq
  | sendLow hatt hq htakes => exact (exec_of_attempts_low hatt hq).trans (offerByte_taken htakes _ _)
  | sendHigh hatt hq htakes => exact (exec_of_attempts_high hatt hq).trans (offerByte_taken htakes _ _)
  | reset => rfl

/-- The machine answers a next state exactly by a transition. -/
theorem exec_next_iff {i : Instr} {s t : State} : exec i s = .next t ↔ Transition i s t := by
  refine ⟨fun h => ?_, Transition.exec_eq⟩
  have hop : ∀ op, i ≠ .reserved op := fun op hi => exec_reserved_not_next (hi ▸ h)
  obtain ⟨u, hu⟩ := Transition.total hop s
  obtain rfl : t = u := by simpa [h] using hu.exec_eq
  exact hu

/-- A disabled operation holds or waits for the transport. -/
theorem Transition.of_disabled {i : Instr} {s t : State} (h : Transition i s t) (hen : enabled i s = false) :
    t = s ∨ (attempts i s = true ∧ t = spendReady s) := by
  cases h with
  | hold | lineStay => exact .inl rfl
  | wait hatt hheld => exact .inr ⟨hatt, rfl⟩
  | sendLow hatt hq htakes | sendHigh hatt hq htakes => simp [enabled_of_attempts hatt, htakes] at hen
  | capture hp | overflow hp | compare hp => simp [enabled, hp] at hen
  | checkPending hq | checkEmpty hq | sleep hq | snapshot hq => simp [enabled, hq] at hen
  | light hq => simp [enabled, isLit, hq] at hen
  | tick | lineLatch | lineMove | reset => cases hen

/-- RESET is never held. -/
theorem isReset_of_disabled {i : Instr} {s : State} (h : enabled i s = false) : isReset i = false := by
  cases i <;> simp_all [enabled, isReset]

/-- RESET makes no attempt. -/
theorem isReset_of_attempts {i : Instr} {s : State} (h : attempts i s = true) : isReset i = false := by
  cases i <;> simp_all [attempts, isReset]

/-! ## The statements -/

/-- Settles O8: `Snap` is entered by the rule of the positive test alone, and of the rules that stay there only the
capture's writes `rawTicks`. -/
theorem snapshotReadsAndClearsSlot : Obligations.SnapshotReadsAndClearsSlot := by
  refine ⟨fun s => ⟨exec_snapshot_of_snap, exec_snapshot_of_ne⟩, fun i s t h hs ht => ?_, fun i s t h hs hraw ht hzero => ?_⟩
  · cases exec_next_iff.mp h with
    | checkPending hq hticks => exact ⟨rfl, hq, hticks⟩
    | capture | overflow | compare =>
      by_cases hasleep : s.seq = .asleep <;> simp_all
    | _ => simp_all
  · cases exec_next_iff.mp h with
    | capture hp => exact ⟨rfl, hp, hzero⟩
    | _ => simp_all

/-- Settles O32: by the rules; only the two handlers, SNAPSHOT and RESET write to the slot. -/
theorem slotFieldsHaveOnlyTheirWriters : Obligations.SlotFieldsHaveOnlyTheirWriters := by
  intro i s t h hr
  cases exec_next_iff.mp h with
  | capture => exact ⟨fun hcap => absurd rfl hcap, fun _ _ => rfl⟩
  | overflow => exact ⟨fun _ _ => ⟨rfl, rfl⟩, fun hovf => absurd rfl hovf⟩
  | snapshot => exact ⟨fun _ hsnap => absurd rfl hsnap, fun _ hsnap => absurd rfl hsnap⟩
  | reset => cases hr
  | _ => exact ⟨fun _ _ => ⟨rfl, rfl⟩, fun _ _ => rfl⟩

/-- Settles O33: by the rules; a flag is set by its event and cleared by its handler. -/
theorem timerFieldsHaveOnlyTheirWriters : Obligations.TimerFieldsHaveOnlyTheirWriters := by
  intro i s t h hr
  cases exec_next_iff.mp h with
  | tick => simp +contextual [rolloverFlag, compareFlag, isLineSet]
  | capture | overflow | compare => simp +contextual [isLineSet]
  | lineLatch | lineMove => simp [isLineSet]
  | reset => cases hr
  | _ => simp_all

/-- Settles O34: by the rules; the stream is written at an attempt or by RESET. -/
theorem outputsHaveOnlyTheirWriters : Obligations.OutputsHaveOnlyTheirWriters := by
  intro i s t h
  cases exec_next_iff.mp h with
  | sendLow hatt | sendHigh hatt | wait hatt =>
    rcases emission_of_attempts hatt with rfl | rfl | rfl | rfl | ⟨l, d, rfl⟩ <;> simp [isLineSet]
  | reset => simp [isReset, isLineSet]
  | _ => simp_all [isLineSet]

/-- Settles O35: a disabled operation holds or waits, and it waits only while a byte is offered. -/
theorem disabledOperationsHold : Obligations.DisabledOperationsHold := by
  intro i s hop hen
  obtain ⟨t, ht⟩ := Transition.total hop s
  rcases ht.of_disabled hen with rfl | ⟨hatt, rfl⟩
  · exact ⟨t.env, ht.exec_eq, fun _ => rfl⟩
  · exact ⟨(spendReady s).env, ht.exec_eq, fun hno => by simp [txValid_of_attempts hatt] at hno⟩

/-- Settles O36: the two sending rules append the byte TX_DATA offers. -/
theorem streamGrowsByAtMostOneByte : Obligations.StreamGrowsByAtMostOneByte := by
  intro i s t h
  cases exec_next_iff.mp h with
  | sendLow hatt hq => exact ⟨by simp [isReset_of_attempts hatt], fun _ => .inr ⟨_, by simp [txData, hq], rfl⟩⟩
  | sendHigh hatt hq => exact ⟨by simp [isReset_of_attempts hatt], fun _ => .inr ⟨_, by simp [txData, hq], rfl⟩⟩
  | wait hatt => simp [isReset_of_attempts hatt]
  | hold hop hen => simp [isReset_of_disabled hen]
  | _ => simp [isReset]

/-- Settles O38: by the rules; at `Asleep` only the handlers' rules and RESET's change the sequencer, the stream or the
slot. -/
theorem sleepEndsOnlyByHandlerOrReset : Obligations.SleepEndsOnlyByHandlerOrReset := by
  intro i s t hasleep h
  cases exec_next_iff.mp h with
  | capture | overflow | compare | reset => simp [isReset]
  | hold | wait | tick | lineStay | lineLatch | lineMove => exact ⟨absurd hasleep, fun _ => rfl, absurd rfl⟩
  | checkPending hq | checkEmpty hq | sleep hq | snapshot hq | light hq => cases hasleep.symm.trans hq
  | sendLow _ hq | sendHigh _ hq => cases hasleep.symm.trans hq

end Sys2Proof.Machine
end

section
/-! The invariant of the block (R6, R23, R64, R83, R165) and the stream as the snapshots in order (R72, R189): each rule of
`Transition` keeps them, so every step and every run does. -/

namespace Sys2Proof.Machine

/-! ## Legal words -/

theorem scaled_le_scaled_max (den : Nat) (t : Word) : scaled den t ≤ 65535 * 4096 / den :=
  scaled_mono den (u := 0xFFFF#16) (Nat.le_of_lt_succ t.isLt)

/-- R165: no tick count converts to more than the largest duration of the configuration. -/
theorem toNat_convert_le_maxDuration (c : Config) (t : Word) : (convert (scaleDen c) t).toNat ≤ maxDuration c := by
  rw [toNat_convert, maxDuration]
  exact min_le_min_left _ (max_le_max_left _ (scaled_le_scaled_max _ t))

theorem one_le_toNat_convert (den : Nat) (t : Word) : 1 ≤ (convert den t).toNat := by
  rw [toNat_convert]
  omega

theorem markerLegal_markerFor (c : Config) (line : Bool) : markerLegal c (markerFor c line) := by
  cases line
  · exact .inr (.inr rfl)
  · exact .inr (.inl rfl)

/-- `Encode` of a snapshot with a legal marker is one of the words of R81 to R83. -/
theorem wordLegal_encodeWord {c : Config} {p : PendingMeasurement} (h : markerLegal c p.overflowMarker) :
    wordLegal c (encodeWord c p) := by
  by_cases hm : p.overflowMarker = 0#8
  · rw [encodeWord, if_neg (not_not.mpr hm)]
    exact .inl ⟨_, _, rfl, one_le_toNat_convert _ _, toNat_convert_le_maxDuration _ _⟩
  · rw [encodeWord_of_marker hm]
    rcases h with h | h | h
    · exact absurd h hm
    · exact .inr (.inl (by rw [h]))
    · exact .inr (.inr (by rw [h]))

/-! ## Framed bytes -/

theorem framed_nil (c : Config) : framed c [] := ⟨[], by simp, rfl⟩

theorem framed_append_word {c : Config} {bytes : List Byte} {w : Word} (h : framed c bytes) (hw : wordLegal c w) :
    framed c (bytes ++ serialize w) := by
  obtain ⟨words, hlegal, rfl⟩ := h
  refine ⟨words ++ [w], fun x hx => ?_, by simp⟩
  rcases List.mem_append.mp hx with hx | hx
  · exact hlegal x hx
  · exact List.mem_singleton.mp hx ▸ hw

theorem streamFramed_iff_of_not_emitHi {s : State} (h : isEmitHi s.seq = false) :
    streamFramed s ↔ framed s.cfg s.out := by
  cases hq : s.seq <;> simp_all [streamFramed, isEmitHi]

theorem streamFramed_iff_of_emitHi {s : State} {w : Word} (h : s.seq = .emitHi w) :
    streamFramed s ↔ ∃ bytes, framed s.cfg bytes ∧ s.out = bytes ++ [lowByte w] := by
  simp [streamFramed, h]

/-! ## What keeps the invariant -/

theorem Inv.framed_out {s : State} (h : Inv s) (hq : isEmitHi s.seq = false) : framed s.cfg s.out :=
  (streamFramed_iff_of_not_emitHi hq).mp h.stream

/-- The invariant looks at the configuration, the slot's marker, the sequencer and the stream only. -/
theorem Inv.of_same_seq {s t : State} (h : Inv s) (hcfg : t.cfg = s.cfg) (hm : markerLegal s.cfg t.pm.overflowMarker)
    (hseq : t.seq = s.seq) (hout : t.out = s.out) : Inv t where
  config := hcfg ▸ h.config
  slotMarker := hcfg ▸ hm
  heldMarker := fun p hp => hcfg ▸ h.heldMarker p (hseq ▸ hp)
  inFlight := fun w hw => hcfg ▸ h.inFlight w (hseq ▸ hw)
  stream := by
    have hstream := h.stream
    unfold streamFramed at hstream ⊢
    rwa [hseq, hcfg, hout]

/-- A move of the loop to a sequencer state that holds no snapshot and no word keeps the invariant. -/
theorem Inv.of_loop_seq {s t : State} (h : Inv s) (hcfg : t.cfg = s.cfg) (hpm : t.pm = s.pm)
    (hseq : t.seq = .check ∨ t.seq = .preSleep ∨ t.seq = .asleep ∨ t.seq = .snap) (hout : t.out = s.out)
    (hs : isEmitHi s.seq = false) : Inv t where
  config := hcfg ▸ h.config
  slotMarker := hcfg ▸ hpm ▸ h.slotMarker
  heldMarker := fun p hp => by simp [hp] at hseq
  inFlight := fun w hw => by rcases hw with hw | hw <;> simp [hw] at hseq
  stream := by
    have ht : isEmitHi t.seq = false := by rcases hseq with hq | hq | hq | hq <;> simp [hq, isEmitHi]
    rw [streamFramed_iff_of_not_emitHi ht, hcfg, hout]
    exact h.framed_out hs

theorem Inv.wake {s : State} (h : Inv s) : Inv (wake s) := by
  by_cases hasleep : s.seq = .asleep
  · exact h.of_loop_seq rfl rfl (.inl (wake_seq_of_asleep hasleep)) rfl (by simp [hasleep, isEmitHi])
  · exact h.of_same_seq rfl h.slotMarker (wake_seq_of_ne_asleep hasleep) rfl

/-- Every operation keeps the invariant. -/
theorem Inv.of_transition {i : Instr} {s t : State} (h : Inv s) (ht : Transition i s t) : Inv t := by
  cases ht with
  | hold | lineStay => exact h
  | wait | tick | lineLatch | lineMove => exact h.of_same_seq rfl h.slotMarker rfl rfl
  | capture => exact (h.of_same_seq (t := recordCapture s) rfl h.slotMarker rfl rfl).wake
  | overflow => exact (h.of_same_seq (t := recordOverflow s) rfl (markerLegal_markerFor _ _) rfl rfl).wake
  | compare => exact (h.of_same_seq (t := indicatorOff s) rfl h.slotMarker rfl rfl).wake
  | checkPending hq => exact h.of_loop_seq rfl rfl (.inr (.inr (.inr rfl))) rfl (by simp [hq, isEmitHi])
  | checkEmpty hq => exact h.of_loop_seq rfl rfl (.inr (.inl rfl)) rfl (by simp [hq, isEmitHi])
  | sleep hq => exact h.of_loop_seq rfl rfl (.inr (.inr (.inl rfl))) rfl (by simp [hq, isEmitHi])
  | snapshot hq =>
    exact {
      config := h.config
      slotMarker := .inl rfl
      heldMarker := fun p hp => by cases hp; exact h.slotMarker
      inFlight := fun w hw => by rcases hw with hw | hw <;> cases hw
      stream := h.framed_out (by simp [hq, isEmitHi]) }
  | @light _ p hq =>
    exact {
      config := h.config
      slotMarker := h.slotMarker
      heldMarker := fun p hp => by cases hp
      inFlight := fun w hw => by
        rcases hw with hw | hw <;> cases hw
        exact wordLegal_encodeWord (h.heldMarker p hq)
      stream := h.framed_out (by simp [hq, isEmitHi]) }
  | @sendLow _ _ w hatt hq =>
    exact {
      config := h.config
      slotMarker := h.slotMarker
      heldMarker := fun p hp => by cases hp
      inFlight := fun w' hw => by
        rcases hw with hw | hw <;> cases hw
        exact h.inFlight w (.inl hq)
      stream := ⟨s.out, h.framed_out (by simp [hq, isEmitHi]), rfl⟩ }
  | @sendHigh _ _ w hatt hq =>
    obtain ⟨bytes, hbytes, hout⟩ := (streamFramed_iff_of_emitHi hq).mp h.stream
    have hword : s.out ++ [highByte w] = bytes ++ serialize w := by simp [hout, serialize]
    exact {
      config := h.config
      slotMarker := h.slotMarker
      heldMarker := fun p hp => by cases hp
      inFlight := fun w' hw => by rcases hw with hw | hw <;> cases hw
      stream := by
        rw [streamFramed_iff_of_not_emitHi rfl, hword]
        exact framed_append_word hbytes (h.inFlight w (.inr hq)) }
  | reset =>
    exact {
      config := h.config
      slotMarker := .inl rfl
      heldMarker := fun p hp => by cases hp
      inFlight := fun w hw => by rcases hw with hw | hw <;> cases hw
      stream := framed_nil _ }

/-! ## The stream and the bytes owed -/

theorem owedBytes_wake (s : State) : owedBytes (wake s) = owedBytes s := by
  by_cases hasleep : s.seq = .asleep
  · simp [owedBytes, hasleep]
  · simp [owedBytes, hasleep]

/-- The slot values one operation takes: that of a SNAPSHOT at `Snap`. -/
def snapshotOf (i : Instr) (s : State) : List PendingMeasurement := if i = .snapshot ∧ s.seq = .snap then [s.pm] else []

theorem snapshotOf_of_ne {i : Instr} (h : i ≠ .snapshot) (s : State) : snapshotOf i s = [] := by
  simp [snapshotOf, h]

theorem snapshotOf_of_not_snap {i : Instr} {s : State} (h : s.seq ≠ .snap) : snapshotOf i s = [] := by
  simp [snapshotOf, h]

theorem snapshotOf_of_disabled {i : Instr} {s : State} (h : enabled i s = false) : snapshotOf i s = [] := by
  by_cases hi : i = .snapshot
  · subst hi
    exact snapshotOf_of_not_snap (of_decide_eq_false h)
  · exact snapshotOf_of_ne hi s

theorem snapshotsTaken_cons {i : Instr} {s t : State} (h : exec i s = .next t) (is : List Instr) :
    snapshotsTaken (i :: is) s = snapshotOf i s ++ snapshotsTaken is t := by
  simp [snapshotsTaken, snapshotOf, h]

/-- R72 for one operation: the stream and the bytes owed grow by the encoding of the slot value it takes. -/
theorem Transition.stream_grows {i : Instr} {s t : State} (ht : Transition i s t) (hr : isReset i = false) :
    t.out ++ owedBytes t =
      s.out ++ owedBytes s ++ (snapshotOf i s).flatMap (fun p => serialize (encodeWord s.cfg p)) := by
  cases ht with
  | hold hop hen => simp [snapshotOf_of_disabled hen]
  | wait hatt =>
    have hnone : snapshotOf i s = [] :=
      snapshotOf_of_not_snap fun hq => by rcases seq_of_attempts hatt with ⟨w, hw⟩ | ⟨w, hw⟩ <;> simp [hw] at hq
    simp [hnone, owedBytes]
  | capture | overflow | compare =>
    rw [owedBytes_wake]
    simp [owedBytes, snapshotOf]
  | tick | lineStay | lineLatch | lineMove => simp [owedBytes, snapshotOf]
  | checkPending hq | checkEmpty hq | sleep hq | light hq => simp [owedBytes, snapshotOf, hq]
  | snapshot hq => simp [owedBytes, snapshotOf, hq]
  | sendLow hatt hq | sendHigh hatt hq => simp [owedBytes, snapshotOf, hq, serialize]
  | reset => cases hr

theorem Transition.cfg_eq {i : Instr} {s t : State} (ht : Transition i s t) : t.cfg = s.cfg := by
  cases ht <;> rfl

/-! ## The statements -/

/-- Settles O56: a step is one operation on the state whose script has moved on, or a hold. -/
theorem stepKeepsTheBlockInvariant : Obligations.StepKeepsTheBlockInvariant := by
  intro s t hinv hstep
  obtain ⟨-, ⟨i, -, hexec⟩ | ⟨-, rfl⟩⟩ := step_cases hstep
  · have hadvanced : Inv (advanceChoice i s) := hinv.of_same_seq rfl hinv.slotMarker rfl rfl
    exact hadvanced.of_transition (exec_next_iff.mp hexec)
  · exact hinv

/-- Settles O57: the slot and the stream are empty and the loop is at `Check`. -/
theorem blockInvariantHoldsAtReset : Obligations.BlockInvariantHoldsAtReset where
  config := configValid_reference _
  slotMarker := .inl rfl
  heldMarker := fun p hp => by cases hp
  inFlight := fun w hw => by rcases hw with hw | hw <;> cases hw
  stream := framed_nil _

/-- Settles O58, by induction on the run: each operation adds the encoding of the slot value it takes, and none changes the
configuration the encodings are made under. -/
theorem streamIsTheSnapshotsInOrder : Obligations.StreamIsTheSnapshotsInOrder := by
  intro ops
  induction ops with
  | nil =>
    intro s t _ h
    obtain rfl : s = t := by simpa using h
    simp [snapshotsTaken]
  | cons i is ih =>
    intro s t hops h
    obtain ⟨u, hu, hrest⟩ := execAll_cons_cases h
    have hfirst := (exec_next_iff.mp hu).stream_grows (hops i List.mem_cons_self)
    have hlater := ih u t (fun j hj => hops j (List.mem_cons_of_mem _ hj)) hrest
    rw [(exec_next_iff.mp hu).cfg_eq] at hlater
    rw [hlater, hfirst, snapshotsTaken_cons hu, List.flatMap_append, List.append_assoc]

end Sys2Proof.Machine
end

section
/-! The encodings (R80 to R90): the fields of a wire word and of a selector, the reserved selectors, and the two round
trips. -/

namespace Sys2Proof.Machine

/-! ## A wire word is its level flag and its duration (R81) -/

@[simp] theorem extractLsb'_measurementWord (l : Bool) (d : Duration) : (measurementWord l d).extractLsb' 0 15 = d := by
  apply BitVec.eq_of_toNat_eq
  have hd : d.toNat < 2 ^ 15 := d.isLt
  rw [BitVec.extractLsb'_toNat, toNat_measurementWord, Nat.shiftRight_zero]
  split <;> omega

@[simp] theorem getLsbD_measurementWord (l : Bool) (d : Duration) : (measurementWord l d).getLsbD 15 = l := by
  have hd : d.toNat < 2 ^ 15 := d.isLt
  rw [BitVec.getLsbD, Nat.testBit_eq_decide_div_mod_eq, toNat_measurementWord]
  cases l
  · exact decide_eq_false (by simp only [Bool.false_eq_true, if_false]; omega)
  · exact decide_eq_true (by simp only [if_true]; omega)

theorem measurementWord_inj {l l' : Bool} {d d' : Duration} :
    measurementWord l d = measurementWord l' d' ↔ l = l' ∧ d = d' := by
  refine ⟨fun h => ⟨?_, ?_⟩, fun ⟨hl, hd⟩ => hl ▸ hd ▸ rfl⟩
  · simpa only [getLsbD_measurementWord] using congrArg (BitVec.getLsbD · 15) h
  · simpa only [extractLsb'_measurementWord] using congrArg (BitVec.extractLsb' 0 15) h

/-- Every wire word has a level flag and a duration. -/
theorem exists_eq_measurementWord (w : Word) : ∃ l d, w = measurementWord l d := by
  refine ⟨w.getLsbD 15, w.extractLsb' 0 15, BitVec.eq_of_toNat_eq ?_⟩
  have hw : w.toNat < 2 ^ 16 := w.isLt
  rw [toNat_measurementWord, BitVec.extractLsb'_toNat, Nat.shiftRight_zero, BitVec.getLsbD,
    Nat.testBit_eq_decide_div_mod_eq]
  simp only [decide_eq_true_eq]
  split <;> omega

theorem measurementWord_low_max : measurementWord true 32767#15 = 0xFFFF#16 := by decide
theorem measurementWord_high_max : measurementWord false 32767#15 = 0x7FFF#16 := by decide
theorem measurementWord_low_zero : measurementWord true 0#15 = 0x8000#16 := by decide
theorem measurementWord_high_zero : measurementWord false 0#15 = 0x0000#16 := by decide

/-- The two words of duration 0 (R83). -/
theorem duration_eq_zero_iff {w : Word} : w.extractLsb' 0 15 = 0#15 ↔ w = 0x0000#16 ∨ w = 0x8000#16 := by
  obtain ⟨l, d, rfl⟩ := exists_eq_measurementWord w
  rw [extractLsb'_measurementWord, ← measurementWord_high_zero, ← measurementWord_low_zero, measurementWord_inj,
    measurementWord_inj]
  cases l <;> simp

/-! ## Reading a wire word -/

theorem decodeWire_of_zero (l : Bool) : decodeWire (measurementWord l 0#15) = .reservedWire (measurementWord l 0#15) :=
  if_pos (extractLsb'_measurementWord l 0#15)

/-- The words of duration 32767 are read as the overflow rows (log 12). -/
theorem decodeWire_of_max (l : Bool) :
    decodeWire (measurementWord l 32767#15) = .instr (if l then .wireOverflowHigh else .wireOverflowLow) := by
  cases l <;> decide

theorem decodeWire_of_measurement (l : Bool) {d : Duration} (h0 : d ≠ 0#15) (hmax : d ≠ 32767#15) :
    decodeWire (measurementWord l d) = .instr (.wireMeasurement l d) := by
  have hhigh : measurementWord l d ≠ 0xFFFF#16 := fun h =>
    hmax (measurementWord_inj.mp (h.trans measurementWord_low_max.symm)).2
  have hlow : measurementWord l d ≠ 0x7FFF#16 := fun h =>
    hmax (measurementWord_inj.mp (h.trans measurementWord_high_max.symm)).2
  rw [decodeWire, extractLsb'_measurementWord, getLsbD_measurementWord, if_neg h0, if_neg hhigh, if_neg hlow]

/-! ## The fields of a selector (R86) -/

theorem selectorHigh_eq_zero_iff (op : Byte) : op.extractLsb' 5 3 = 0#3 ↔ op.toNat / 32 = 0 := by
  have hop : op.toNat < 2 ^ 8 := op.isLt
  rw [← BitVec.toNat_inj, BitVec.extractLsb'_toNat, Nat.shiftRight_eq_div_pow, BitVec.toNat_ofNat]
  omega

theorem selectorCode_eq_iff (op : Byte) (k : BitVec 4) : op.extractLsb' 0 4 = k ↔ op.toNat % 16 = k.toNat := by
  rw [← BitVec.toNat_inj, BitVec.extractLsb'_toNat, Nat.shiftRight_zero]

theorem selectorOperand_iff (op : Byte) : op.getLsbD 4 = true ↔ op.toNat / 16 % 2 = 1 := by
  rw [BitVec.getLsbD, Nat.testBit_eq_decide_div_mod_eq, decide_eq_true_eq]

/-! ## Reserved selectors (R88) -/

theorem selectorReserved_iff (op : Byte) : selectorReserved op = true ↔
    op.toNat / 32 ≠ 0 ∨ 12 ≤ op.toNat % 16 ∨ (op.toNat / 16 % 2 = 1 ∧ op.toNat % 16 ≠ 1 ∧ op.toNat % 16 ≠ 11) := by
  simp only [selectorReserved, Bool.or_eq_true, Bool.and_eq_true, decide_eq_true_eq, or_assoc, and_assoc]

/-- A code of R88 names no plain operation. -/
theorem plainOperation_of_high_code {op : Byte} (h : 12 ≤ op.toNat % 16) : plainOperation op = .reserved op := by
  rw [(selectorCode_eq_iff op _).mp rfl] at h
  unfold plainOperation
  split
  case h_11 => rfl
  all_goals omega

theorem decodeSelector_of_reserved {op : Byte} (h : selectorReserved op = true) : decodeSelector op = .reserved op := by
  rw [selectorReserved_iff] at h
  unfold decodeSelector
  split
  · rfl
  · next hhigh =>
    rw [not_not, selectorHigh_eq_zero_iff] at hhigh
    rw [if_neg (by rw [selectorCode_eq_iff]; simp; omega), if_neg (by rw [selectorCode_eq_iff]; simp; omega)]
    split
    · rfl
    · next hoperand =>
      rw [selectorOperand_iff] at hoperand
      exact plainOperation_of_high_code (by omega)

/-- A selector that is not reserved is one of the fourteen of R87. -/
theorem exists_eq_choiceSelector {op : Byte} (h : selectorReserved op = false) : ∃ k, op = choiceSelector k := by
  have hsmall : ∀ n < 32, selectorReserved (BitVec.ofNat 8 n) = false → ∃ k, BitVec.ofNat 8 n = choiceSelector k := by
    decide
  have hlt : op.toNat < 32 := by
    have hnot := mt (selectorReserved_iff op).mpr (by simp [h])
    omega
  simpa using hsmall op.toNat hlt (by simpa using h)

/-- The row is not RESERVED. -/
def namesOperation : Instr → Bool
  | .reserved _ => false
  | _ => true

theorem ne_reserved_of_namesOperation {i : Instr} (h : namesOperation i = true) (op : Byte) : i ≠ .reserved op :=
  fun hi => by simp [hi, namesOperation] at h

theorem namesOperation_choiceSelector : ∀ k, namesOperation (decodeSelector (choiceSelector k)) = true := by decide

theorem encode_decode_choiceSelector : ∀ k, (decodeSelector (choiceSelector k)).wf = true ∧
    encode (decodeSelector (choiceSelector k)) = .op8 (choiceSelector k) := by decide

/-- The decoder answers RESERVED exactly for a reserved selector, with that selector. -/
theorem decodeSelector_eq_reserved_iff {op o : Byte} :
    decodeSelector op = .reserved o ↔ selectorReserved op = true ∧ o = op := by
  cases hr : selectorReserved op with
  | true => simp [decodeSelector_of_reserved hr, eq_comm]
  | false =>
    obtain ⟨k, rfl⟩ := exists_eq_choiceSelector hr
    simpa using ne_reserved_of_namesOperation (namesOperation_choiceSelector k) o

/-! ## Round trips -/

theorem decodeBytes_bytes (c : Code) : decodeBytes c.bytes = .item (decode c) := by
  cases c with
  | op8 op => rfl
  | wire16 w => simp [Code.bytes, decodeBytes]

theorem decode_encode {i : Instr} (h : i.wf = true) : decode (encode i) = .instr i := by
  cases i with
  | lineSet v => cases v <;> decide
  | reset v => cases v <;> decide
  | reserved op => exact congrArg Decoded.instr (decodeSelector_of_reserved h)
  | wireMeasurement l d =>
    simp only [Instr.wf, Bool.and_eq_true, decide_eq_true_eq] at h
    exact decodeWire_of_measurement l h.1 h.2
  | _ => decide

theorem encode_decodeSelector (op : Byte) : (decodeSelector op).wf = true ∧ encode (decodeSelector op) = .op8 op := by
  cases hr : selectorReserved op with
  | true =>
    rw [decodeSelector_of_reserved hr]
    exact ⟨hr, rfl⟩
  | false =>
    obtain ⟨k, rfl⟩ := exists_eq_choiceSelector hr
    exact encode_decode_choiceSelector k

theorem encode_of_decodeWire {w : Word} {i : Instr} (h : decodeWire w = .instr i) : i.wf = true ∧ encode i = .wire16 w := by
  obtain ⟨l, d, rfl⟩ := exists_eq_measurementWord w
  by_cases h0 : d = 0#15
  · rw [h0, decodeWire_of_zero] at h
    cases h
  by_cases hmax : d = 32767#15
  · subst hmax
    rw [decodeWire_of_max] at h
    cases l <;> cases h <;> decide
  · rw [decodeWire_of_measurement l h0 hmax] at h
    cases h
    exact ⟨by simp [Instr.wf, h0, hmax], rfl⟩

theorem decodeWire_ne_reservedWire {v w : Word} (h : v.extractLsb' 0 15 ≠ 0#15) : decodeWire v ≠ .reservedWire w := by
  unfold decodeWire
  rw [if_neg h]
  split
  · simp
  · split <;> simp

theorem decodeWire_eq_reservedWire_iff {v w : Word} :
    decodeWire v = .reservedWire w ↔ v = w ∧ (w = 0x0000#16 ∨ w = 0x8000#16) := by
  rw [← duration_eq_zero_iff]
  by_cases h0 : v.extractLsb' 0 15 = 0#15
  · rw [decodeWire, if_pos h0, Decoded.reservedWire.injEq]
    exact ⟨fun h => ⟨h, h ▸ h0⟩, And.left⟩
  · exact ⟨fun h => absurd h (decodeWire_ne_reservedWire h0), fun ⟨hvw, hw⟩ => absurd (hvw ▸ hw) h0⟩

/-! ## The statements -/

/-- Settles O13: R88's clauses are `selectorReserved`, and the decoder answers RESERVED exactly there. -/
theorem reservedSelectorsAreRefused : Obligations.ReservedSelectorsAreRefused := by
  intro op
  rw [← selectorReserved_iff]
  refine ⟨fun hr => ⟨congrArg Decoded.instr (decodeSelector_of_reserved hr), fun _ => rfl⟩, fun hr => ?_⟩
  exact ⟨decodeSelector op, rfl, fun o ho => hr (decodeSelector_eq_reserved_iff.mp ho).1⟩

/-- Settles O16: each word evaluates to its row. -/
theorem specWordsDecodeToTheirRows : Obligations.SpecWordsDecodeToTheirRows := by
  unfold Obligations.SpecWordsDecodeToTheirRows
  decide

/-- Settles O18: the item decodes to the instruction, and its bytes are read as the item. -/
theorem decodeEncodeRoundTrip : Obligations.DecodeEncodeRoundTrip := by
  intro i hwf
  exact ⟨decode_encode hwf, by rw [decodeBytes_bytes, decode_encode hwf]⟩

/-- Settles O19: a selector is reserved or one of the fourteen, a wire word is read by its duration. -/
theorem encodeDecodeRoundTrip : Obligations.EncodeDecodeRoundTrip := by
  refine ⟨fun c i h => ?_, fun c w => ?_⟩
  · cases c with
    | op8 op =>
      cases h
      exact encode_decodeSelector op
    | wire16 w => exact encode_of_decodeWire h
  · cases c with
    | op8 op => simp [decode]
    | wire16 v => simpa [decode] using decodeWire_eq_reservedWire_iff

end Sys2Proof.Machine
end

section
/-! The step (R6, R11, R231, log 1 to 3, 10, 13, 14): which operation it runs, what it leaves of the script, and when it
refuses. -/

namespace Sys2Proof.Machine

/-! ## The script -/

theorem nextCode_of_empty {s : State} (h : s.env.script = []) :
    nextCode s = .op8 (choiceSelector (Config.freeChoice s.env.choiceNo)) := by
  simp [nextCode, h]

theorem advanceChoice_of_script {s : State} {c : Code} {rest : List Code} (h : s.env.script = c :: rest) (i : Instr) :
    advanceChoice i s = { s with env := { s.env with script := if finishesItem i s then rest else c :: rest } } := by
  cases hf : finishesItem i s <;> simp [advanceChoice, h, hf]
  simp [← h]

theorem advanceChoice_of_empty {s : State} (h : s.env.script = []) (i : Instr) :
    advanceChoice i s = { s with env := { s.env with choiceNo := s.env.choiceNo + 1 } } := by
  simp [advanceChoice, h]

/-- With nothing scripted the next free choice runs. -/
theorem step_of_empty {s : State} (hv : configValid s.cfg = true) (h : s.env.script = []) :
    step s = exec (decodeSelector (choiceSelector (Config.freeChoice s.env.choiceNo)))
      { s with env := { s.env with choiceNo := s.env.choiceNo + 1 } } := by
  rw [step_of_valid hv (congrArg decode (nextCode_of_empty h)), advanceChoice_of_empty h]

/-- The script's head runs, and it leaves the script exactly when the step ends it. -/
theorem step_of_script {s : State} {c : Code} {rest : List Code} {i : Instr} (hv : configValid s.cfg = true)
    (h : s.env.script = c :: rest) (hd : decode c = .instr i) :
    step s = exec i { s with env := { s.env with script := if finishesItem i s then rest else c :: rest } } := by
  rw [step_of_valid hv (by rw [nextCode_of_script h, hd]), advanceChoice_of_script h]

theorem step_of_script_finished {s : State} {c : Code} {rest : List Code} {i : Instr} (hv : configValid s.cfg = true)
    (h : s.env.script = c :: rest) (hd : decode c = .instr i) (hf : finishesItem i s = true) :
    step s = exec i { s with env := { s.env with script := rest } } := by
  rw [step_of_script hv h hd, if_pos hf]

/-! ## No operation writes to the script -/

@[simp] theorem spendReady_script (s : State) : (spendReady s).env.script = s.env.script := by
  rw [spendReady_env]

@[simp] theorem spendDraw_script (s : State) : (spendDraw s).env.script = s.env.script := by
  rw [spendDraw_env]

theorem Transition.script_eq {i : Instr} {s t : State} (h : Transition i s t) : t.env.script = s.env.script := by
  cases h with
  | wait | sendLow | sendHigh => exact spendReady_script s
  | reset => exact spendDraw_script s
  | _ => rfl

/-- A scripted RESET runs at once (R260, R261). -/
theorem step_of_scripted_reset {s : State} {v : Bool} {rest : List Code} (hv : configValid s.cfg = true)
    (h : s.env.script = .op8 (if v then 0x1B#8 else 0x0B#8) :: rest) :
    ∃ a, step s = .next a ∧ a.cfg = s.cfg ∧ a.seq = .check ∧ a.pm = PendingMeasurement.zero ∧ a.line = v ∧ a.out = [] ∧
      a.env.script = rest := by
  rw [step_of_script_finished (i := .reset v) hv h (by cases v <;> decide) rfl, exec_reset]
  exact ⟨_, rfl, rfl, rfl, rfl, rfl, rfl, spendDraw_script _⟩

/-! ## Refusals -/

/-- An operation is refused exactly as RESERVED, with its selector (R88). -/
theorem exec_refused_iff {i : Instr} {s : State} {r : Refusal} :
    exec i s = .refused r ↔ ∃ op, i = .reserved op ∧ r = .reservedOp op := by
  refine ⟨fun h => ?_, fun ⟨op, hi, hr⟩ => hi ▸ hr ▸ rfl⟩
  by_cases hop : ∀ op, i ≠ .reserved op
  · obtain ⟨t, ht⟩ := Transition.total hop s
    simp [ht.exec_eq] at h
  · obtain ⟨op, rfl⟩ : ∃ op, i = .reserved op := by simpa using hop
    exact ⟨op, rfl, by simpa [exec, execReserved, eq_comm] using h⟩

/-- The two reasons a step is refused. -/
theorem step_refused_iff {s : State} {r : Refusal} :
    step s = .refused r ↔ (r = .badConfig ∧ configValid s.cfg = false) ∨
      (∃ op, r = .reservedOp op ∧ configValid s.cfg = true ∧ decode (nextCode s) = .instr (.reserved op)) := by
  cases hv : configValid s.cfg with
  | false => simp [step, hv, eq_comm]
  | true =>
    cases hd : decode (nextCode s) with
    | instr i => simp [step_of_valid hv hd, exec_refused_iff, and_comm]
    | reservedWire w => simp [step_of_reservedWire hv hd]

/-- RESERVED comes from a reserved selector at the script's head; the free scheduler never chooses it. -/
theorem decode_nextCode_eq_reserved_iff {s : State} {op : Byte} :
    decode (nextCode s) = .instr (.reserved op) ↔
      (∃ rest, s.env.script = .op8 op :: rest) ∧ selectorReserved op = true := by
  cases h : s.env.script with
  | nil =>
    have hnot := ne_reserved_of_namesOperation (namesOperation_choiceSelector (Config.freeChoice s.env.choiceNo)) op
    simp [nextCode_of_empty h, decode, hnot]
  | cons c rest =>
    rw [nextCode_of_script h]
    cases c with
    | op8 o =>
      simp only [decode, Decoded.instr.injEq, decodeSelector_eq_reserved_iff, List.cons.injEq, Code.op8.injEq]
      exact ⟨fun ⟨hr, ho⟩ => ⟨⟨rest, ho.symm, rfl⟩, ho ▸ hr⟩, fun ⟨⟨_, ho, _⟩, hr⟩ => ⟨ho ▸ hr, ho.symm⟩⟩
    | wire16 w =>
      refine ⟨fun hd => ?_, fun ⟨⟨_, hcons⟩, _⟩ => by simp at hcons⟩
      have henc := (encode_of_decodeWire hd).2
      simp [encode] at henc

/-! ## The statements -/

/-- Settles O15: the step's equation for a scripted item, for a free choice, and for a word of duration 0. -/
theorem stepRunsTheDecodedInstruction : Obligations.StepRunsTheDecodedInstruction := by
  refine ⟨fun s c rest i hv h hd => step_of_script hv h hd, fun s hv h => step_of_empty hv h,
    fun s i hmeas hhigh hlow => ?_, fun s c rest w hv h hd => step_of_reservedWire hv (by rw [nextCode_of_script h, hd])⟩
  cases i with
  | wireMeasurement l d => exact absurd rfl (hmeas l d)
  | wireOverflowHigh => exact absurd rfl hhigh
  | wireOverflowLow => exact absurd rfl hlow
  | _ => rfl

/-- Settles O17: of the two reasons only the configuration's is BadConfig, and R6's clauses are `configValid`. -/
theorem invalidConfigurationIsRefused : Obligations.InvalidConfigurationIsRefused := by
  intro s
  have hclauses := configValid_iff s.cfg
  rw [scaleDen] at hclauses
  rw [step_refused_iff, ← hclauses]
  simp

/-- Settles O20: the fields of the reset state, and the reference configuration's denominator. -/
theorem stateAfterResetHasTheSpecsValues : Obligations.StateAfterResetHasTheSpecsValues :=
  ⟨rfl, rfl, rfl, rfl, rfl, rfl, rfl, scaleDen_reference _, rfl, rfl⟩

/-- Settles O21: each of the three items is enabled when it stands at the head, so each step ends its item. -/
theorem loopEntersIdleAfterReset : Obligations.LoopEntersIdleAfterReset := by
  intro v s rest hv hscript
  obtain ⟨a, hreset, hcfg, hseq, hpm, hline, hout, hrest⟩ := step_of_scripted_reset hv hscript
  have hcheck : step a = .next { a with seq := .preSleep, env := { a.env with script := .op8 0x06#8 :: rest } } :=
    (step_of_script_finished (i := .loopCheck) (hcfg ▸ hv) hrest (by decide) (decide_eq_true hseq)).trans
      (exec_loopCheck_of_empty hseq (congrArg PendingMeasurement.rawTicks hpm))
  have hsleep : step { a with seq := .preSleep, env := { a.env with script := .op8 0x06#8 :: rest } } =
      .next { a with seq := .asleep, env := { a.env with script := rest } } :=
    (step_of_script_finished (i := .enterSleep) (hcfg ▸ hv) rfl (by decide) rfl).trans (exec_enterSleep_of_preSleep rfl)
  exact ⟨_, _, _, hreset, hcheck, hsleep, hseq, rfl, rfl, hline, hpm, hout, rfl⟩

/-- Settles O55: a free choice names an operation, which has a transition, and none writes to configuration or script. -/
theorem freeRunNeverStops : Obligations.FreeRunNeverStops := by
  intro s hv hscript
  obtain ⟨t, ht⟩ := Transition.total
    (ne_reserved_of_namesOperation (namesOperation_choiceSelector (Config.freeChoice s.env.choiceNo)))
    { s with env := { s.env with choiceNo := s.env.choiceNo + 1 } }
  refine ⟨t, (step_of_empty hv hscript).trans ht.exec_eq, ?_, ?_⟩
  · rw [ht.cfg_eq]
    exact hv
  · rw [ht.script_eq]
    exact hscript

/-- Settles O59: there is no fault reason, and the reserved item of the second reason is the script's head. -/
theorem refusalsAreExactlyTheTwoReasons : Obligations.RefusalsAreExactlyTheTwoReasons := by
  intro s
  refine ⟨(fun f => nomatch f), fun r => ?_⟩
  rw [step_refused_iff]
  refine or_congr_right (exists_congr fun op => ?_)
  rw [decode_nextCode_eq_reserved_iff]
  exact ⟨fun ⟨hr, hv, ⟨rest, hs⟩, hop⟩ => ⟨rest, hr, hv, hs, hop⟩, fun ⟨rest, hr, hv, hs, hop⟩ => ⟨hr, hv, ⟨rest, hs⟩, hop⟩⟩

end Sys2Proof.Machine
end

section
/-! The converter's range and thresholds (R163 to R168), and what a host can read back from the encoded words (R83 to R85). -/

namespace Sys2Proof.Machine

/-! ## Thresholds of the scaled value -/

theorem le_scaled_iff {den : Nat} (hden : 1 ≤ den) (n : Nat) (t : Word) : n ≤ scaled den t ↔ n * den ≤ t.toNat * 4096 :=
  Nat.le_div_iff_mul_le hden

theorem scaled_gt_iff {den : Nat} (hden : 1 ≤ den) (t : Word) : scaled den t > 32767 ↔ 8 * den ≤ t.toNat := by
  have h : 32768 ≤ scaled den t ↔ 32768 * den ≤ t.toNat * 4096 := le_scaled_iff hden 32768 t
  omega

/-- Convert reaches its largest value exactly where the scaled value reaches it. -/
theorem convert_eq_max_iff (den : Nat) (t : Word) : convert den t = 32767#15 ↔ 32767 ≤ scaled den t := by
  rw [← BitVec.toNat_inj, toNat_convert, BitVec.toNat_ofNat]
  omega

theorem exists_convert_eq_max_iff {den : Nat} (hden : 1 ≤ den) : (∃ t, convert den t = 32767#15) ↔ den ≤ 8192 := by
  simp only [convert_eq_max_iff, le_scaled_iff hden]
  refine ⟨fun ⟨t, ht⟩ => ?_, fun h => ⟨0xFFFF#16, ?_⟩⟩
  · have hlt : t.toNat < 2 ^ 16 := t.isLt
    omega
  · rw [BitVec.toNat_ofNat]
    omega

/-! ## The statements about Convert -/

/-- Settles O23: all five clauses are of the clamp of the scaled value, which is monotone and largest at 65535. -/
theorem convertIsMonotoneInRange : Obligations.ConvertIsMonotoneInRange := by
  intro den _
  simp only [toNat_convert]
  refine ⟨fun t => ⟨?_, min_le_left _ _⟩, fun t u htu => ?_, fun t ht => ?_, fun t => ?_, rfl⟩
  · omega
  · exact min_le_min_left _ (max_le_max_left _ (scaled_mono den htu))
  · have hscaled : 32767 ≤ scaled den t := ht
    omega
  · exact min_le_min_left _ (max_le_max_left _ (scaled_le_scaled_max den t))

/-- Settles O24: the clamp acts from the threshold `8 * den` on, which a 16-bit count reaches when `den` is at most 8191. -/
theorem saturationThreshold : Obligations.SaturationThreshold := by
  refine ⟨fun den hden => ⟨scaled_gt_iff hden, fun t ht => ?_, fun t ht => ?_, ⟨fun ⟨t, ht⟩ => ?_, fun h => ?_⟩,
    exists_convert_eq_max_iff hden⟩, fun c t => ?_⟩
  · rw [convert_eq_max_iff]
    exact ((scaled_gt_iff hden t).mpr ht).le
  · have hbelow := mt (scaled_gt_iff hden t).mp ht.not_ge
    rw [toNat_convert]
    omega
  · have hreach := (scaled_gt_iff hden t).mp ht
    have hlt : t.toNat < 2 ^ 16 := t.isLt
    omega
  · refine ⟨0xFFFF#16, (scaled_gt_iff hden _).mpr ?_⟩
    rw [BitVec.toNat_ofNat]
    omega
  · have hmax := scaled_le_scaled_max 15625 t
    rw [scaleDen_reference, toNat_convert]
    omega

/-- Settles O25: a quotient is 0 below its divisor; at the reference the second unit begins at t = 8. -/
theorem zeroFloorRegion : Obligations.ZeroFloorRegion := by
  refine ⟨fun den t hden => Nat.div_eq_zero_iff_lt hden, fun c t => ?_, fun c => ?_⟩
  · have hsecond := le_scaled_iff (den := 15625) (by omega) 2 t
    rw [scaleDen_reference, ← BitVec.toNat_inj, toNat_convert, BitVec.toNat_ofNat]
    omega
  · rw [scaleDen_reference]
    decide

/-- Settles O26: without clamp Convert is the quotient, and a quotient times its divisor is within one divisor. -/
theorem inverseScaleWithinOneUnit : Obligations.InverseScaleWithinOneUnit := by
  intro den t hden hpos hle
  obtain ⟨-, -, hexact⟩ := convertSaturatesAndFloors den t hden
  rw [hexact hpos hle]
  exact ⟨Nat.div_mul_le_self _ _, (Nat.div_lt_iff_lt_mul hden).mp (Nat.lt_succ_self _)⟩

/-! ## Which words are encoded -/

theorem encodeWord_of_no_marker {p : PendingMeasurement} (h : p.overflowMarker = 0#8) (c : Config) :
    encodeWord c p = encodeMeasurement (scaleDen c) p.rawTicks p.exitedLevelHigh :=
  if_neg (not_not.mpr h)

theorem convert_ne_zero (den : Nat) (t : Word) : convert den t ≠ 0#15 := by
  have hpos := one_le_toNat_convert den t
  intro h
  simp [h] at hpos

theorem duration_encodeOverflow_ne_zero (m : Byte) : (encodeOverflow m).extractLsb' 0 15 ≠ 0#15 := by
  rw [ne_eq, ← BitVec.toNat_inj, BitVec.extractLsb'_toNat, toNat_encodeOverflow, Nat.shiftRight_zero, BitVec.toNat_ofNat]
  omega

theorem duration_encodeWord_ne_zero (c : Config) (p : PendingMeasurement) :
    (encodeWord c p).extractLsb' 0 15 ≠ 0#15 := by
  by_cases hm : p.overflowMarker = 0#8
  · rw [encodeWord_of_no_marker hm, encodeMeasurement, extractLsb'_measurementWord]
    exact convert_ne_zero _ _
  · rw [encodeWord_of_marker hm]
    exact duration_encodeOverflow_ne_zero _

theorem encodeMeasurement_eq_overflowHigh_iff {den : Nat} {t : Word} {hi : Bool} :
    encodeMeasurement den t hi = 0xFFFF#16 ↔ hi = false ∧ convert den t = 32767#15 := by
  rw [encodeMeasurement, ← measurementWord_low_max, measurementWord_inj, Bool.not_eq_true']

theorem encodeMeasurement_eq_overflowLow_iff {den : Nat} {t : Word} {hi : Bool} :
    encodeMeasurement den t hi = 0x7FFF#16 ↔ hi = true ∧ convert den t = 32767#15 := by
  rw [encodeMeasurement, ← measurementWord_high_max, measurementWord_inj, Bool.not_eq_false']

/-- R84: some measurement equals an overflow word exactly when Convert reaches 32767. -/
theorem exists_collision_iff {den : Nat} (hden : 1 ≤ den) :
    (∃ (t : Word) (hi : Bool), encodeMeasurement den t hi = 0xFFFF#16 ∨ encodeMeasurement den t hi = 0x7FFF#16) ↔
      den ≤ 8192 := by
  rw [← exists_convert_eq_max_iff hden]
  simp only [encodeMeasurement_eq_overflowHigh_iff, encodeMeasurement_eq_overflowLow_iff]
  exact exists_congr fun t => ⟨fun ⟨_, h⟩ => h.elim And.right And.right, fun h => ⟨false, .inl ⟨rfl, h⟩⟩⟩

/-! ## The host's reading (R85) -/

theorem hostRead_overflow {den : Nat} (hden : 8193 ≤ den) {w : Word} (h : w = 0xFFFF#16 ∨ w = 0x7FFF#16) :
    hostRead den (lowByte w) (highByte w) = .overflow (w.getLsbD 15) := by
  rw [hostRead, wordOfBytes_bytes, if_pos ⟨h, hden⟩]

theorem hostRead_measurement {den : Nat} {l : Bool} {d : Duration}
    (h : ¬(measurementWord l d = 0xFFFF#16 ∨ measurementWord l d = 0x7FFF#16)) :
    hostRead den (lowByte (measurementWord l d)) (highByte (measurementWord l d)) = .measurement (!l) d := by
  rw [hostRead, wordOfBytes_bytes, if_neg (fun hw => h hw.1), getLsbD_measurementWord, extractLsb'_measurementWord]

/-! ## The statements about the words -/

/-- Settles O28: neither a converted duration nor an overflow word has its low 15 bits 0. -/
theorem reservedWordsAreNeverEncoded : Obligations.ReservedWordsAreNeverEncoded := by
  intro c p
  have hdur := duration_encodeWord_ne_zero c p
  exact ⟨hdur, fun h => hdur (duration_eq_zero_iff.mpr (.inl h)), fun h => hdur (duration_eq_zero_iff.mpr (.inr h))⟩

/-- Settles O29: an overflow word is the measurement word of duration 32767 and one level. -/
theorem wireFormatsCollideExactlyUpTo8192 : Obligations.WireFormatsCollideExactlyUpTo8192 :=
  fun _ hden => ⟨exists_collision_iff hden, fun _ _ => encodeMeasurement_eq_overflowLow_iff.mp,
    fun _ _ => encodeMeasurement_eq_overflowHigh_iff.mp⟩

/-- Settles O30: from SCALE_DEN 8193 on no measurement is one of the two words the host reads as an overflow. -/
theorem hostRecoversWhatWasEncoded : Obligations.HostRecoversWhatWasEncoded := by
  intro c p hmarkerHigh hmarkerLow hden
  refine ⟨fun hhigh => ?_, fun hlow => ?_, fun hzero => ?_⟩
  · have hword : encodeWord c p = 0xFFFF#16 := by
      rw [encodeWord_of_marker (by simp [hhigh, hmarkerHigh]), hhigh, hmarkerHigh]
      rfl
    rw [hword, hostRead_overflow hden (.inl rfl)]
    rfl
  · have hword : encodeWord c p = 0x7FFF#16 := by
      rw [encodeWord_of_marker (by simp [hlow, hmarkerLow]), hlow, hmarkerLow]
      rfl
    rw [hword, hostRead_overflow hden (.inr rfl)]
    rfl
  · have hapart := mt (exists_collision_iff (by omega)).mp (by omega : ¬ scaleDen c ≤ 8192)
    rw [encodeWord_of_no_marker hzero, encodeMeasurement,
      hostRead_measurement fun h => hapart ⟨p.rawTicks, p.exitedLevelHigh, h⟩, Bool.not_not]

end Sys2Proof.Machine
end

section
/-! Runs of operations (R141, R188, R190, R215, R264 to R272): the forward rule of a run, the parts of one pass of the loop,
and the statements about what a short run does. -/

namespace Sys2Proof.Machine

/-! ## Running forward -/

theorem execAll_cons_eq {i : Instr} {is : List Instr} {s t u : State} (h : exec i s = .next t)
    (hr : execAll is t = .next u) : execAll (i :: is) s = .next u :=
  (execAll_cons_next h is).trans hr

/-- A run of operations without RESERVED answers a next state. -/
theorem exists_execAll {ops : List Instr} (hops : ∀ i ∈ ops, ∀ op, i ≠ .reserved op) (s : State) :
    ∃ t, execAll ops s = .next t := by
  induction ops generalizing s with
  | nil => exact ⟨s, rfl⟩
  | cons i is ih =>
    obtain ⟨u, hu⟩ := Transition.total (hops i List.mem_cons_self) s
    obtain ⟨t, ht⟩ := ih (fun j hj => hops j (List.mem_cons_of_mem _ hj)) u
    exact ⟨t, execAll_cons_eq hu.exec_eq ht⟩

theorem exec_emitLo_of_ready {s : State} {w : Word} {rest : List Bool} (h : s.seq = .emitLo w)
    (hr : s.env.ready = true :: rest) : exec .emitLo s = .next { s with
      out := s.out ++ [lowByte w], seq := .emitHi w, env := { s.env with ready := rest } } := by
  rw [exec_emitLo_of_due h, sendLow, offerByte_taken (transportTakes_of_ready hr), spendReady_eq,
    spendReady_env_of_ready hr]

theorem exec_emitHi_of_ready {s : State} {w : Word} {rest : List Bool} (h : s.seq = .emitHi w)
    (hr : s.env.ready = true :: rest) : exec .emitHi s = .next { s with
      out := s.out ++ [highByte w], seq := .check, env := { s.env with ready := rest } } := by
  rw [exec_emitHi_of_due h, sendHigh, offerByte_taken (transportTakes_of_ready hr), spendReady_eq,
    spendReady_env_of_ready hr]

/-! ## One pass of the loop, part by part (R188) -/

theorem execAll_check_snapshot {s : State} (hq : s.seq = .check) (ht : s.pm.rawTicks ≠ 0#16) :
    execAll [.loopCheck, .snapshot] s = .next { s with pm := PendingMeasurement.zero, seq := .lit s.pm } :=
  execAll_cons_eq (exec_loopCheck_of_pending hq ht) (execAll_cons_eq (exec_snapshot_of_snap rfl) rfl)

theorem execAll_check_indicator {s : State} (hq : s.seq = .check) (ht : s.pm.rawTicks ≠ 0#16) :
    execAll [.loopCheck, .snapshot, .indicatorOn] s = .next { s with
      pm := PendingMeasurement.zero, led := true, seq := .emitLo (encodeWord s.cfg s.pm) } :=
  (execAll_append_next (execAll_check_snapshot hq ht)).trans (execAll_cons_eq (exec_indicatorOn_of_lit rfl) rfl)

theorem execAll_emit {s : State} {w : Word} {rest : List Bool} (hq : s.seq = .emitLo w)
    (hr : s.env.ready = true :: true :: rest) : execAll [.emitLo, .emitHi] s = .next { s with
      out := s.out ++ [lowByte w, highByte w], seq := .check, env := { s.env with ready := rest } } := by
  refine execAll_cons_eq (exec_emitLo_of_ready hq hr) (execAll_cons_eq (exec_emitHi_of_ready rfl rfl) ?_)
  simp

/-- Settles O42: the part up to the word, then its two bytes. -/
theorem onePassDrainsTheSlot : Obligations.OnePassDrainsTheSlot :=
  fun _ _ hq ht hr => (execAll_append_next (execAll_check_indicator hq ht)).trans (execAll_emit rfl hr)

/-- Settles O43: both handlers leave the loop at `Check`, with the latch beside the marker, and then one pass drains. -/
theorem overflowTakesTheDrain : Obligations.OverflowTakesTheDrain := by
  intro s answers hv hq hovf hcap hicr hr
  have hhandlers : execAll [.overflowIsr, .captureIsr] s = .next (wake (recordCapture (wake (recordOverflow s)))) :=
    execAll_cons_eq (exec_overflowIsr_of_pending hovf) (execAll_cons_eq (exec_captureIsr_of_pending hcap) rfl)
  have hpass := onePassDrainsTheSlot (wake (recordCapture (wake (recordOverflow s)))) answers (by simp [hq]) hicr hr
  refine ⟨_, (execAll_append_next hhandlers).trans hpass, ?_, rfl, rfl⟩
  rw [encodeWord_of_marker (markerFor_ne_zero hv s.line), lowByte_encodeOverflow, highByte_encodeOverflow]
  rfl

/-! ## The handlers in either order -/

/-- Two handlers commute when neither touches the other's flag and their effects, with the wakes, commute. -/
theorem execAll_handlers_comm {i j : Instr} {a b : State → Bool} {f g : State → State}
    (hi : ∀ s, exec i s = takeInterrupt (a s) f s) (hj : ∀ s, exec j s = takeInterrupt (b s) g s)
    (hfb : ∀ s, b (wake (f s)) = b s) (hga : ∀ s, a (wake (g s)) = a s)
    (hfg : ∀ s, wake (g (wake (f s))) = wake (f (wake (g s)))) (s : State) :
    execAll [i, j] s = execAll [j, i] s := by
  cases ha : a s <;> cases hb : b s <;> simp [execAll, hi, hj, takeInterrupt, ha, hb, hfb, hga, hfg]

theorem execAll_capture_overflow_comm (s : State) :
    execAll [.captureIsr, .overflowIsr] s = execAll [.overflowIsr, .captureIsr] s :=
  execAll_handlers_comm (a := State.capPending) (b := State.ovfPending) (f := recordCapture) (g := recordOverflow)
    (fun _ => rfl) (fun _ => rfl) (fun _ => rfl) (fun _ => rfl) (fun _ => rfl) s

theorem execAll_capture_compare_comm (s : State) :
    execAll [.captureIsr, .compareIsr] s = execAll [.compareIsr, .captureIsr] s :=
  execAll_handlers_comm (a := State.capPending) (b := State.cmpPending) (f := recordCapture) (g := indicatorOff)
    (fun _ => rfl) (fun _ => rfl) (fun _ => rfl) (fun _ => rfl) (fun _ => rfl) s

theorem execAll_overflow_compare_comm (s : State) :
    execAll [.overflowIsr, .compareIsr] s = execAll [.compareIsr, .overflowIsr] s :=
  execAll_handlers_comm (a := State.ovfPending) (b := State.cmpPending) (f := recordOverflow) (g := indicatorOff)
    (fun _ => rfl) (fun _ => rfl) (fun _ => rfl) (fun _ => rfl) (fun _ => rfl) s

theorem handler_ne_reserved {i : Instr} (hi : i = .captureIsr ∨ i = .overflowIsr ∨ i = .compareIsr) (op : Byte) :
    i ≠ .reserved op := by
  rcases hi with rfl | rfl | rfl <;> simp

/-- Settles O39: the three pairs of different handlers commute. -/
theorem handlersCommute : Obligations.HandlersCommute := by
  intro i j s hi hj
  obtain ⟨t, ht⟩ : ∃ t, execAll [i, j] s = .next t :=
    exists_execAll (by simpa using ⟨handler_ne_reserved hi, handler_ne_reserved hj⟩) s
  refine ⟨t, ht, ht ▸ ?_⟩
  rcases hi with rfl | rfl | rfl <;> rcases hj with rfl | rfl | rfl
  · rfl
  · exact (execAll_capture_overflow_comm s).symm
  · exact (execAll_capture_compare_comm s).symm
  · exact execAll_capture_overflow_comm s
  · rfl
  · exact (execAll_overflow_compare_comm s).symm
  · exact execAll_capture_compare_comm s
  · exact execAll_overflow_compare_comm s
  · rfl

/-! ## Overflow, zero capture and the lost wake-up -/

/-- Under this configuration and line level the slot's marker is that of the level (R140). -/
def marksLine (c : Config) (line : Bool) (s : State) : Prop :=
  s.cfg = c ∧ s.line = line ∧ s.pm.overflowMarker = markerFor c line

theorem marksLine.of_transition {c : Config} {line : Bool} {i : Instr} {s t : State} (h : marksLine c line s)
    (ht : Transition i s t) (hsnap : i ≠ .snapshot) (hreset : isReset i = false) (hline : isLineSet i = false) :
    marksLine c line t := by
  cases ht with
  | lineStay | lineLatch | lineMove => cases hline
  | snapshot => exact absurd rfl hsnap
  | reset => cases hreset
  | overflow =>
    obtain ⟨rfl, rfl, -⟩ := h
    exact ⟨rfl, rfl, rfl⟩
  | _ => exact h

/-- Settles O40: the run keeps the configuration, the line, and that the slot's marker is the one of that line. -/
theorem repeatedOverflowRestatesTheMarker : Obligations.RepeatedOverflowRestatesTheMarker := by
  intro ops s t u hovf ht hops hrun
  obtain rfl : wake (recordOverflow s) = t := by simpa [exec_overflowIsr_of_pending hovf] using ht
  suffices hkept : marksLine s.cfg s.line u from hkept.2.2
  refine execAll_keeps (s := wake (recordOverflow s)) (fun i hi x y hx hxy => ?_) ⟨rfl, rfl, rfl⟩ hrun
  have hallowed : i ≠ .snapshot ∧ isReset i = false ∧ isLineSet i = false := by
    rcases List.mem_append.mp hi with hi | hi
    · exact hops i hi
    · rw [List.mem_singleton.mp hi]
      decide
  obtain ⟨hsnap, hreset, hline⟩ := hallowed
  exact hx.of_transition (exec_next_iff.mp hxy) hsnap hreset hline

theorem convert_zero (den : Nat) : convert den 0#16 = 1#15 := by
  rw [← BitVec.toNat_inj, toNat_convert]
  simp [scaled]

/-- Settles O41: the handler overwrites `rawTicks` with 0, which the test does not see, and which converts to 1. -/
theorem zeroCaptureIsLost : Obligations.ZeroCaptureIsLost := by
  intro s hcap hicr
  refine ⟨fun hq => ?_, fun hq hmarker _ => ?_⟩
  · exact ⟨_, execAll_cons_eq (exec_captureIsr_of_pending hcap)
      (execAll_cons_eq (exec_loopCheck_of_empty (by simp [hq]) hicr) rfl), hicr, rfl, rfl⟩
  · refine ⟨_, execAll_cons_eq (exec_captureIsr_of_pending hcap) (execAll_cons_eq (exec_snapshot_of_snap (by simp [hq]))
      (execAll_cons_eq (exec_indicatorOn_of_lit rfl) rfl)), ?_⟩
    simp [encodeWord_of_no_marker, hmarker, encodeMeasurement, hicr, convert_zero]

/-- Settles O44: the handler wakes the loop to a test of `rawTicks` 0. -/
theorem markerAloneStartsNoDrain : Obligations.MarkerAloneStartsNoDrain := by
  intro s hasleep hovf hraw
  exact ⟨_, execAll_cons_eq (exec_overflowIsr_of_pending hovf)
    (execAll_cons_eq (exec_loopCheck_of_empty (wake_seq_of_asleep hasleep) hraw)
      (execAll_cons_eq (exec_enterSleep_of_preSleep rfl) rfl)), rfl, rfl, hraw, rfl⟩

/-- Settles O45: the capture lands at `PreSleep`, and a handler that wakes the loop lets the next pass take it. -/
theorem lostWakeUpWindow : Obligations.LostWakeUpWindow := by
  intro s hq hraw hcap hicr
  refine ⟨_, execAll_cons_eq (exec_loopCheck_of_empty hq hraw) (execAll_cons_eq (exec_captureIsr_of_pending hcap)
    (execAll_cons_eq (exec_enterSleep_of_preSleep rfl) rfl)), rfl, rfl, fun hcmp => ?_, fun hovf => ?_⟩
  · exact ⟨_, execAll_cons_eq (exec_compareIsr_of_pending hcmp) (execAll_check_snapshot rfl hicr), rfl⟩
  · exact ⟨_, execAll_cons_eq (exec_overflowIsr_of_pending hovf) (execAll_check_snapshot rfl hicr), rfl⟩

/-! ## Edges and polarity -/

/-- Settles O46: the fall latches, the rise does not match, and the handler turns the polarity away from the line. -/
theorem glitchDesynchronisesPolarity : Obligations.GlitchDesynchronisesPolarity := by
  intro s hline hedge
  refine ⟨_, execAll_cons_eq (exec_lineSet_of_match (by simp [hline]) (by simp [edgeMatches, hline, hedge]))
    (execAll_cons_eq (exec_lineSet_of_not_match (by simp) (by simp [edgeMatches, hedge]))
      (execAll_cons_eq (exec_captureIsr_of_pending rfl) rfl)), rfl, fun hsource => ?_, fun hsource => ?_, rfl, ?_, ?_⟩
  · simp [exitedLevel, hsource]
  · simp [exitedLevel, hsource, hedge]
  · simp [hedge, flipEdge]
  · exact exec_lineSet_of_not_match (by simp) (by simp [edgeMatches, hedge, flipEdge])

/-- R112: an agreeing polarity selects whichever transition comes next. -/
theorem edgeMatches_of_agrees {s : State} {v : Bool} (h : polarityAgrees s) (hv : v ≠ s.line) :
    edgeMatches s.line v s.edge = true := by
  rw [edgeMatches_iff_of_ne hv, h]
  cases hline : s.line <;> simp_all

/-- Settles O48: the transition latches; its handler turns the polarity to the new level, and by either LEVEL_SOURCE the
exited level is the old one. -/
theorem agreeingPolarityCatchesTheNextEdge : Obligations.AgreeingPolarityCatchesTheNextEdge := by
  refine ⟨fun s v hagree hv => ?_, fun i s t hagree hline hcap h => ?_⟩
  · have hlevel : s.line = !v := Bool.eq_not.mpr hv.symm
    have hedge : s.edge = if v then .rising else .falling := by
      rw [hagree, hlevel]
      cases v <;> rfl
    refine ⟨_, exec_lineSet_of_match hv (edgeMatches_of_agrees hagree hv), rfl, rfl, _, exec_captureIsr_of_pending rfl,
      ?_, rfl, ?_⟩
    · cases v <;> simp [polarityAgrees, hedge, flipEdge]
    · cases hsource : s.cfg.levelSource <;> cases v <;> simp [exitedLevel, hsource, hedge, hlevel]
  · cases exec_next_iff.mp h with
    | lineStay | lineLatch | lineMove => cases hline
    | capture => exact absurd rfl hcap
    | reset => exact rfl
    | _ => exact hagree

/-! ## The capture and rollover race -/

theorem exec_tick_of_wrap {s : State} (h : s.count = 0xFFFF#16) : ∃ c, exec .tick s = .next { s with
    count := 0#16, ovfPending := true, cmpPending := c } :=
  ⟨_, by rw [exec_tick, h]; rfl⟩

/-- Settles O47: the handlers commute after the TICK, and the drain encodes the marker; a SNAPSHOT before the rollover
handler leaves the marker to the emptied slot. -/
theorem captureRolloverRace : Obligations.CaptureRolloverRace := by
  intro s hv hcap hcount hq hicr
  obtain ⟨c, htick⟩ := exec_tick_of_wrap hcount
  have hhandlers : execAll [.overflowIsr, .captureIsr] { s with count := 0#16, ovfPending := true, cmpPending := c } = _ :=
    execAll_cons_eq (exec_overflowIsr_of_pending rfl) (execAll_cons_eq (exec_captureIsr_of_pending hcap) rfl)
  have hdrain := execAll_check_indicator (s := wake (recordCapture (wake (recordOverflow
    { s with count := 0#16, ovfPending := true, cmpPending := c })))) (by simp [hq]) hicr
  refine ⟨_, execAll_cons_eq htick ((execAll_append_next hhandlers).trans hdrain),
    execAll_cons_eq htick ((execAll_append_next ((execAll_capture_overflow_comm _).trans hhandlers)).trans hdrain), ?_, ?_⟩
  · exact congrArg Seq.emitLo (encodeWord_of_marker (markerFor_ne_zero hv s.line) _)
  · refine ⟨_, execAll_cons_eq htick (execAll_cons_eq (exec_captureIsr_of_pending hcap)
      ((execAll_append_next (execAll_check_snapshot (by simp [hq]) hicr)).trans
        (execAll_cons_eq (exec_overflowIsr_of_pending rfl) rfl))), rfl, rfl⟩

/-! ## The indicator -/

theorem enabled_led (i : Instr) (s : State) (b : Bool) : enabled i { s with led := b } = enabled i s := by
  cases i <;> rfl

theorem attempts_led (i : Instr) (s : State) (b : Bool) : attempts i { s with led := b } = attempts i s := by
  cases i <;> rfl

/-- R32 for one operation: no rule's condition looks at the indicator, and no other field is computed from it. -/
theorem Transition.led {i : Instr} {s t : State} (h : Transition i s t) (b : Bool) :
    ∃ c, Transition i { s with led := b } { t with led := c } := by
  cases h with
  | hold hop hen hatt => exact ⟨b, .hold hop (enabled_led i s b ▸ hen) (attempts_led i s b ▸ hatt)⟩
  | wait hatt hheld => exact ⟨b, .wait (attempts_led i s b ▸ hatt) hheld⟩
  | tick => exact ⟨b, .tick _⟩
  | lineStay hv => exact ⟨b, .lineStay hv⟩
  | lineLatch hv hm => exact ⟨b, .lineLatch hv hm⟩
  | lineMove hv hm => exact ⟨b, .lineMove hv hm⟩
  | capture hp => exact ⟨b, .capture hp⟩
  | overflow hp => exact ⟨b, .overflow hp⟩
  | compare hp => exact ⟨false, .compare hp⟩
  | checkPending hq ht => exact ⟨b, .checkPending hq ht⟩
  | checkEmpty hq ht => exact ⟨b, .checkEmpty hq ht⟩
  | sleep hq => exact ⟨b, .sleep hq⟩
  | snapshot hq => exact ⟨b, .snapshot hq⟩
  | light hq => exact ⟨true, .light hq⟩
  | sendLow hatt hq htakes => exact ⟨b, .sendLow (attempts_led i s b ▸ hatt) hq htakes⟩
  | sendHigh hatt hq htakes => exact ⟨b, .sendHigh (attempts_led i s b ▸ hatt) hq htakes⟩
  | reset v => exact ⟨_, .reset v _⟩

/-- Settles O49, by induction on the run. -/
theorem indicatorInfluencesNothing : Obligations.IndicatorInfluencesNothing := by
  intro ops
  induction ops with
  | nil =>
    intro s t b h
    obtain rfl : s = t := by simpa using h
    exact ⟨b, rfl⟩
  | cons i is ih =>
    intro s t b h
    obtain ⟨u, hu, hrest⟩ := execAll_cons_cases h
    obtain ⟨c, hc⟩ := (exec_next_iff.mp hu).led b
    obtain ⟨d, hd⟩ := ih u t c hrest
    exact ⟨d, execAll_cons_eq hc.exec_eq hd⟩

end Sys2Proof.Machine
end

section
/-! Time in ticks (R110, R116, R144, R214, R275): what n TICKs do, the count along a run, and how the loop reaches `Check`. -/

namespace Sys2Proof.Machine

/-! ## n TICKs -/

/-- The count wraps within n more ticks after this one exactly if it wraps within n + 1 from here. -/
theorem rolloverFlag_or_wraps_iff (count : Word) (flag : Bool) (n : Nat) :
    (rolloverFlag count flag = true ∨ 65536 ≤ (count + 1#16).toNat + n) ↔ (flag = true ∨ 65536 ≤ count.toNat + (n + 1)) := by
  have hlt : count.toNat < 2 ^ 16 := count.isLt
  by_cases hmax : count = 0xFFFF#16
  · subst hmax
    refine iff_of_true (.inl rfl) (.inr ?_)
    rw [BitVec.toNat_ofNat]
    omega
  · have hne : count.toNat ≠ 65535 := fun h => hmax (BitVec.eq_of_toNat_eq h)
    have hsucc : (count + 1#16).toNat = count.toNat + 1 := by
      rw [BitVec.toNat_add, BitVec.toNat_ofNat]
      omega
    rw [rolloverFlag, if_neg hmax, hsucc, Nat.add_assoc, Nat.add_comm 1 n]

theorem count_add_succ (count : Word) (n : Nat) : count + 1#16 + BitVec.ofNat 16 n = count + BitVec.ofNat 16 (n + 1) := by
  rw [BitVec.add_assoc, Nat.add_comm n 1, BitVec.ofNat_add]

/-- The compare value is met by this tick or within n more exactly if it is met within n + 1. -/
theorem compareFlag_or_meets_iff (c : Config) (count : Word) (flag : Bool) (n : Nat) :
    (compareFlag c (count + 1#16) flag = true ∨
        ∃ k, 1 ≤ k ∧ k ≤ n ∧ count + 1#16 + BitVec.ofNat 16 k = c.compareValue) ↔
      (flag = true ∨ ∃ k, 1 ≤ k ∧ k ≤ n + 1 ∧ count + BitVec.ofNat 16 k = c.compareValue) := by
  have hsplit : (∃ k, 1 ≤ k ∧ k ≤ n + 1 ∧ count + BitVec.ofNat 16 k = c.compareValue) ↔
      count + 1#16 = c.compareValue ∨ ∃ k, 1 ≤ k ∧ k ≤ n ∧ count + 1#16 + BitVec.ofNat 16 k = c.compareValue := by
    simp only [count_add_succ]
    constructor
    · rintro ⟨k, hpos, hle, hk⟩
      obtain rfl | hgt : k = 1 ∨ 1 < k := by omega
      · exact .inl hk
      · obtain ⟨j, rfl⟩ : ∃ j, k = j + 1 := ⟨k - 1, by omega⟩
        exact .inr ⟨j, by omega, by omega, hk⟩
    · rintro (hk | ⟨k, hpos, hle, hk⟩)
      · exact ⟨1, le_rfl, by omega, hk⟩
      · exact ⟨k + 1, by omega, by omega, hk⟩
  have hflag : compareFlag c (count + 1#16) flag = true ↔ flag = true ∨ count + 1#16 = c.compareValue := by
    unfold compareFlag
    split <;> simp_all
  rw [hsplit, hflag, or_assoc]

/-- All that n TICKs do. -/
theorem execAll_pseudoTicks (n : Nat) (s : State) : ∃ o c : Bool,
    execAll (pseudoTicks n) s = .next { s with count := s.count + BitVec.ofNat 16 n, ovfPending := o, cmpPending := c } ∧
      (o = true ↔ s.ovfPending = true ∨ 65536 ≤ s.count.toNat + n) ∧
      (c = true ↔ s.cmpPending = true ∨ ∃ k, 1 ≤ k ∧ k ≤ n ∧ s.count + BitVec.ofNat 16 k = s.cfg.compareValue) := by
  induction n generalizing s with
  | zero =>
    have hlt : s.count.toNat < 2 ^ 16 := s.count.isLt
    refine ⟨s.ovfPending, s.cmpPending, by simp [pseudoTicks], ⟨.inl, fun h => h.resolve_right (by omega)⟩,
      ⟨.inl, fun h => h.resolve_right ?_⟩⟩
    rintro ⟨k, hpos, hle, -⟩
    omega
  | succ n ih =>
    obtain ⟨o, c, hrun, ho, hc⟩ := ih { s with
      count := s.count + 1#16
      ovfPending := rolloverFlag s.count s.ovfPending
      cmpPending := compareFlag s.cfg (s.count + 1#16) s.cmpPending }
    refine ⟨o, c, execAll_cons_eq (exec_tick s) ?_, ho.trans (rolloverFlag_or_wraps_iff _ _ _),
      hc.trans (compareFlag_or_meets_iff _ _ _ _)⟩
    rw [← count_add_succ s.count n]
    exact hrun

/-- Settles O50: the count and the rollover flag of `execAll_pseudoTicks`. -/
theorem ticksAccumulate : Obligations.TicksAccumulate := by
  intro n s
  obtain ⟨o, c, hrun, ho, -⟩ := execAll_pseudoTicks n s
  exact ⟨o, c, hrun, ho⟩

/-- From count 0 the compare value is met within n ticks exactly if it is at most n. -/
theorem meets_from_zero_iff {v : Word} (hv : 1 ≤ v.toNat) (n : Nat) :
    (∃ k, 1 ≤ k ∧ k ≤ n ∧ 0#16 + BitVec.ofNat 16 k = v) ↔ v.toNat ≤ n := by
  constructor
  · rintro ⟨k, -, hle, rfl⟩
    rw [BitVec.zero_add, BitVec.toNat_ofNat]
    exact (Nat.mod_le _ _).trans hle
  · exact fun hle => ⟨v.toNat, hv, hle, by simp⟩

/-- Settles O51: the handler restarts the count at 0 and leaves the compare flag clear. -/
theorem compareEventComesAfterCompareValueTicks : Obligations.CompareEventComesAfterCompareValueTicks := by
  intro s t hcap hcmp hpos ht
  obtain rfl : wake (recordCapture s) = t := by simpa [exec_captureIsr_of_pending hcap] using ht
  have hticks : ∀ n, ∃ u, execAll (pseudoTicks n) (wake (recordCapture s)) = .next u ∧
      (u.cmpPending = true ↔ s.cfg.compareValue.toNat ≤ n) := by
    intro n
    obtain ⟨o, c, hrun, -, hc⟩ := execAll_pseudoTicks n (wake (recordCapture s))
    have hmeets : c = true ↔ s.cmpPending = true ∨ s.cfg.compareValue.toNat ≤ n :=
      hc.trans (or_congr_right (meets_from_zero_iff hpos n))
    exact ⟨_, hrun, by simpa [hcmp] using hmeets⟩
  refine ⟨?_, fun n hn => ?_⟩
  · obtain ⟨u, hrun, hu⟩ := hticks s.cfg.compareValue.toNat
    exact ⟨u, hrun, hu.mpr le_rfl⟩
  · obtain ⟨u, hrun, hu⟩ := hticks n
    exact ⟨u, hrun, Bool.eq_false_iff.mpr fun h => absurd (hu.mp h) hn.not_ge⟩

/-! ## The count along a run (R116) -/

/-- One operation that is no capture handler and no RESET counts if it is a TICK. -/
theorem Transition.count_eq {i : Instr} {s t : State} (h : Transition i s t) (hcap : i ≠ .captureIsr)
    (hreset : isReset i = false) : t.count = s.count + BitVec.ofNat 16 (tickCount [i]) := by
  by_cases htick : i = .tick
  · subst htick
    cases h with
    | tick => rfl
    | wait hatt | sendLow hatt | sendHigh hatt => cases hatt
    | hold hop hen => cases hen
  · obtain ⟨hcount, -⟩ := timerFieldsHaveOnlyTheirWriters i s t h.exec_eq hreset
    simp [hcount htick hcap, tickCount, htick]

theorem count_of_run {ops : List Instr} {s t : State} (hops : ∀ i ∈ ops, i ≠ .captureIsr ∧ isReset i = false)
    (h : execAll ops s = .next t) : t.count = s.count + BitVec.ofNat 16 (tickCount ops) := by
  induction ops generalizing s with
  | nil =>
    obtain rfl : s = t := by simpa using h
    simp [tickCount]
  | cons i is ih =>
    obtain ⟨u, hu, hrest⟩ := execAll_cons_cases h
    obtain ⟨hcap, hreset⟩ := hops i List.mem_cons_self
    rw [ih (fun j hj => hops j (List.mem_cons_of_mem _ hj)) hrest, (exec_next_iff.mp hu).count_eq hcap hreset,
      BitVec.add_assoc, ← BitVec.ofNat_add]
    rfl

/-- The polarity is a capture handler's to change. -/
theorem edge_of_run {ops : List Instr} {s t : State} (hops : ∀ i ∈ ops, i ≠ .captureIsr ∧ isReset i = false)
    (h : execAll ops s = .next t) : t.edge = s.edge := by
  refine execAll_keeps (P := fun x => x.edge = s.edge) (fun i hi x y hx hxy => ?_) rfl h
  obtain ⟨hcap, hreset⟩ := hops i hi
  obtain ⟨-, -, hedge, -⟩ := timerFieldsHaveOnlyTheirWriters i x y hxy hreset
  exact (hedge hcap).trans hx

/-- A latched edge stays latched until its handler, and no tick changes it. -/
theorem latch_of_run {ops : List Instr} {s t : State}
    (hops : ∀ i ∈ ops, i ≠ .captureIsr ∧ isReset i = false ∧ isLineSet i = false) (hs : s.capPending = true)
    (h : execAll ops s = .next t) : t.capPending = true ∧ t.icr = s.icr := by
  refine execAll_keeps (P := fun x => x.capPending = true ∧ x.icr = s.icr) (fun i hi x y hx hxy => ?_) ⟨hs, rfl⟩ h
  obtain ⟨hcap, hreset, hline⟩ := hops i hi
  obtain ⟨-, hicr, -, -, hclear, -⟩ := timerFieldsHaveOnlyTheirWriters i x y hxy hreset
  exact ⟨Bool.not_eq_false _ ▸ fun hy => hcap (hclear hx.1 hy), (hicr hline).1.trans hx.2⟩

/-- Settles O52: the count reaches the edge, the latch holds it until the handler. -/
theorem captureMeasuresTicksToTheEdge : Obligations.CaptureMeasuresTicksToTheEdge := by
  intro before after v s u t hbefore hafter hrun hv hedge hrest
  have hmatch : edgeMatches u.line v u.edge = true := by
    rw [edgeMatches_iff_of_ne hv, edge_of_run hbefore hrun, hedge]
    cases v <;> simp
  obtain ⟨x, hx, hcapture⟩ := execAll_append_cases hrest
  rw [List.cons_append, List.nil_append, execAll_cons_next (exec_lineSet_of_match hv hmatch)] at hx
  obtain ⟨hpending, hicr⟩ := latch_of_run hafter rfl hx
  obtain rfl : wake (recordCapture x) = t := by
    simpa [execAll_cons_next (exec_captureIsr_of_pending hpending)] using hcapture
  exact ⟨hicr.trans (count_of_run hbefore hrun), rfl, rfl⟩

/-! ## Reaching `Check` (R214, R275) -/

/-- Settles O53: the ticks up to the wrap of the count. -/
theorem sleepingLoopIsWokenWithinOneEpoch : Obligations.SleepingLoopIsWokenWithinOneEpoch := by
  intro s hasleep
  obtain ⟨o, c, hrun, ho⟩ := ticksAccumulate (65536 - s.count.toNat) s
  obtain rfl : o = true := ho.mpr (.inr (by omega))
  exact ⟨_, _, _, Nat.sub_le _ _, hrun, hasleep, rfl, exec_overflowIsr_of_pending rfl, wake_seq_of_asleep hasleep⟩

/-- Some run of at most n operations, without RESET and LINE_SET, brings the loop to `Check`. -/
def reachesCheckWithin (n : Nat) (s : State) : Prop :=
  ∃ (ops : List Instr) (t : State), ops.length ≤ n ∧ (∀ i ∈ ops, isReset i = false ∧ isLineSet i = false) ∧
    execAll ops s = .next t ∧ t.seq = .check

theorem reachesCheckWithin_zero {s : State} (h : s.seq = .check) : reachesCheckWithin 0 s :=
  ⟨[], s, le_rfl, by simp, rfl, h⟩

theorem reachesCheckWithin_mono {m n : Nat} {s : State} (hmn : m ≤ n) (h : reachesCheckWithin m s) :
    reachesCheckWithin n s := by
  obtain ⟨ops, t, hlen, hrest⟩ := h
  exact ⟨ops, t, hlen.trans hmn, hrest⟩

theorem reachesCheckWithin_append {m n : Nat} {is : List Instr} {s t : State} (hlen : is.length ≤ m)
    (his : ∀ i ∈ is, isReset i = false ∧ isLineSet i = false) (hrun : execAll is s = .next t)
    (h : reachesCheckWithin n t) : reachesCheckWithin (m + n) s := by
  obtain ⟨js, u, hjlen, hjs, hjrun, hu⟩ := h
  refine ⟨is ++ js, u, ?_, fun i hi => ?_, (execAll_append_next hrun).trans hjrun, hu⟩
  · rw [List.length_append]
    exact Nat.add_le_add hlen hjlen
  · exact (List.mem_append.mp hi).elim (his i) (hjs i)

theorem reachesCheckWithin_of_asleep {s : State} (h : s.seq = .asleep) : reachesCheckWithin 65537 s := by
  obtain ⟨n, t, u, hn, hrun, -, -, hwake, hcheck⟩ := sleepingLoopIsWokenWithinOneEpoch s h
  refine reachesCheckWithin_append (by simpa [pseudoTicks] using hn) (fun i hi => ?_) hrun
    (reachesCheckWithin_append (is := [.overflowIsr]) (m := 1) (by simp) (by simp [isReset, isLineSet])
      (execAll_cons_eq hwake rfl) (reachesCheckWithin_zero hcheck))
  rw [List.eq_of_mem_replicate hi]
  exact ⟨rfl, rfl⟩

theorem reachesCheckWithin_of_emitLo {s : State} {w : Word} {answers : List Bool} (h : s.seq = .emitLo w)
    (hr : s.env.ready = true :: true :: answers) : reachesCheckWithin 2 s :=
  reachesCheckWithin_append le_rfl (by simp [isReset, isLineSet]) (execAll_emit h hr) (reachesCheckWithin_zero rfl)

theorem reachesCheckWithin_of_lit {s : State} {p : PendingMeasurement} {answers : List Bool} (h : s.seq = .lit p)
    (hr : s.env.ready = true :: true :: answers) : reachesCheckWithin 3 s :=
  reachesCheckWithin_append (is := [.indicatorOn]) (m := 1) le_rfl (by simp [isReset, isLineSet])
    (execAll_cons_eq (exec_indicatorOn_of_lit h) rfl) (reachesCheckWithin_of_emitLo rfl hr)

/-- Settles O54: the way to `Check` from each sequencer state; the longest is through the sleep. -/
theorem everyStateCanReachCheck : Obligations.EveryStateCanReachCheck := by
  intro s answers hr
  suffices hreach : ∃ n ≤ 65543, reachesCheckWithin n s from
    hreach.elim fun _ h => reachesCheckWithin_mono h.1 h.2
  cases hq : s.seq with
  | check => exact ⟨_, by omega, reachesCheckWithin_zero hq⟩
  | preSleep =>
    exact ⟨_, by omega, reachesCheckWithin_append (is := [.enterSleep]) (m := 1) le_rfl (by simp [isReset, isLineSet])
      (execAll_cons_eq (exec_enterSleep_of_preSleep hq) rfl) (reachesCheckWithin_of_asleep rfl)⟩
  | asleep => exact ⟨_, by omega, reachesCheckWithin_of_asleep hq⟩
  | snap =>
    exact ⟨_, by omega, reachesCheckWithin_append (is := [.snapshot]) (m := 1) le_rfl (by simp [isReset, isLineSet])
      (execAll_cons_eq (exec_snapshot_of_snap hq) rfl) (reachesCheckWithin_of_lit rfl hr)⟩
  | lit p => exact ⟨_, by omega, reachesCheckWithin_of_lit hq hr⟩
  | emitLo w => exact ⟨_, by omega, reachesCheckWithin_of_emitLo hq hr⟩
  | emitHi w =>
    exact ⟨_, by omega, reachesCheckWithin_append (is := [.emitHi]) (m := 1) le_rfl (by simp [isReset, isLineSet])
      (execAll_cons_eq (exec_emitHi_of_ready hq hr) rfl) (reachesCheckWithin_zero rfl)⟩

end Sys2Proof.Machine
end
